-- ==== Sys2Proof/Word.lean ====
section
/-! DEFINITION. The widths of the hardware's values (00_scope.md rules R6, R9): bytes, 16-bit words, register numbers. -/

namespace Sys2Proof

/-- A byte: a general register, a timer, a memory cell, an `nn` immediate (R6). -/
abbrev Byte := BitVec 8

/-- A 16-bit word: `I`, `PC`, a stack entry, an instruction word, the key vector (R6, R30). -/
abbrev Word := BitVec 16

/-- A 12-bit address operand `nnn` (R56). -/
abbrev Addr12 := BitVec 12

/-- A register number `V0`..`VF`: it comes only from a 4-bit field, so it is always in 0..15 (R16). -/
abbrev Reg := Fin 16

end Sys2Proof
end

