-- ==== Sys2Proof/Syntax.lean ====
section
/-! DEFINITION. The instruction set: one constructor for each of the 34 rows of spec/opcode_table.json
(30_encoding.md rules R57 to R62). Operands are already decoded: register numbers, bytes, 12-bit addresses. -/

namespace Sys2Proof

/-- The 34 instructions. The word pattern of each is in its docstring. -/
inductive Instr where
  /-- `00E0` clear screen (R68) -/
  | cls
  /-- `00EE` return (R72) -/
  | ret
  /-- `1NNN` jump (R73) -/
  | jp (nnn : Addr12)
  /-- `2NNN` call (R74) -/
  | call (nnn : Addr12)
  /-- `3XNN` skip if `V[x] = nn` (R75) -/
  | seImm (x : Reg) (nn : Byte)
  /-- `4XNN` skip if `V[x] != nn` (R76) -/
  | sneImm (x : Reg) (nn : Byte)
  /-- `5XY0` skip if `V[x] = V[y]` (R77) -/
  | seReg (x y : Reg)
  /-- `6XNN` load immediate (R81) -/
  | ldImm (x : Reg) (nn : Byte)
  /-- `7XNN` add immediate (R82) -/
  | addImm (x : Reg) (nn : Byte)
  /-- `8XY0` register move (R83) -/
  | ldReg (x y : Reg)
  /-- `8XY1` bitwise OR (R84) -/
  | orReg (x y : Reg)
  /-- `8XY2` bitwise AND (R85) -/
  | andReg (x y : Reg)
  /-- `8XY3` bitwise XOR (R86) -/
  | xorReg (x y : Reg)
  /-- `8XY4` add with carry (R87) -/
  | addReg (x y : Reg)
  /-- `8XY5` subtract with borrow (R88) -/
  | subReg (x y : Reg)
  /-- `8XY6` shift right (R89) -/
  | shr (x y : Reg)
  /-- `8XY7` reverse subtract with borrow (R90) -/
  | subnReg (x y : Reg)
  /-- `8XYE` shift left (R91) -/
  | shl (x y : Reg)
  /-- `9XY0` skip if `V[x] != V[y]` (R78) -/
  | sneReg (x y : Reg)
  /-- `ANNN` set index (R94) -/
  | ldI (nnn : Addr12)
  /-- `BNNN` jump with offset (R79): the modern form reads its `x` and `nn` out of `nnn` -/
  | jpOffset (nnn : Addr12)
  /-- `CXNN` random (R92) -/
  | rnd (x : Reg) (nn : Byte)
  /-- `DXYN` draw sprite of height `n` (R69) -/
  | drw (x y : Reg) (n : Fin 16)
  /-- `EX9E` skip if key pressed (R101) -/
  | skp (x : Reg)
  /-- `EXA1` skip if key not pressed (R102) -/
  | sknp (x : Reg)
  /-- `FX07` timer get (R104) -/
  | ldVxDt (x : Reg)
  /-- `FX0A` key-wait (R103) -/
  | ldVxK (x : Reg)
  /-- `FX15` delay timer set (R105) -/
  | ldDtVx (x : Reg)
  /-- `FX18` sound timer set (R106) -/
  | ldStVx (x : Reg)
  /-- `FX1E` add to index (R95) -/
  | addI (x : Reg)
  /-- `FX29` font lookup (R96) -/
  | ldF (x : Reg)
  /-- `FX33` BCD store (R97) -/
  | ldB (x : Reg)
  /-- `FX55` register-range store (R98) -/
  | ldMemVx (x : Reg)
  /-- `FX65` register-range load (R99) -/
  | ldVxMem (x : Reg)
  deriving DecidableEq, Repr

end Sys2Proof
end

