-- ==== Sys2Proof/WellFormed.lean ====
section
/-! DEFINITION. Which instruction words are legal, written from the list of illegal words in 30_encoding.md rule R63
alone (the decoder does not use it). The check is on WORDS: every operand type of `Instr` is exactly as wide as
its field (R56), so no ill-formed `Instr` can be written and every `Instr` is well-formed. -/

namespace Sys2Proof

/-- `0x0000`..`0x0FFF` except `00E0` and `00EE` are illegal (R63). -/
def illegalFamily0 (w : Word) : Bool :=
  decide (w.toNat ≤ 0x0FFF) && !(w == 0x00E0#16) && !(w == 0x00EE#16)

/-- `5XYN` and `9XYN` with `N != 0` are illegal (R63). -/
def illegalFamily5or9 (w : Word) : Bool :=
  (w.toNat / 0x1000 == 5 || w.toNat / 0x1000 == 9) && !(w.toNat % 0x10 == 0)

/-- `8XYN` with `N` in {8, 9, A, B, C, D, F} is illegal (R63). -/
def illegalFamily8 (w : Word) : Bool :=
  w.toNat / 0x1000 == 8 && [0x8, 0x9, 0xA, 0xB, 0xC, 0xD, 0xF].contains (w.toNat % 0x10)

/-- `EXNN` with `NN` not in {9E, A1} is illegal (R63). -/
def illegalFamilyE (w : Word) : Bool :=
  w.toNat / 0x1000 == 0xE && !([0x9E, 0xA1].contains (w.toNat % 0x100))

/-- `FXNN` with `NN` not in {07, 0A, 15, 18, 1E, 29, 33, 55, 65} is illegal (R63). -/
def illegalFamilyF (w : Word) : Bool :=
  w.toNat / 0x1000 == 0xF &&
    !([0x07, 0x0A, 0x15, 0x18, 0x1E, 0x29, 0x33, 0x55, 0x65].contains (w.toNat % 0x100))

/-- The legal instruction words: every word is either one instruction or illegal (R63, R64). -/
def legalWord (w : Word) : Bool :=
  !(illegalFamily0 w || illegalFamily5or9 w || illegalFamily8 w || illegalFamilyE w || illegalFamilyF w)

end Sys2Proof
end

