-- ==== Sys2Proof/Config.lean ====
section
/-! DEFINITION. What an implementation fixes (00_scope.md rule R7) and the free inputs no rule constrains (R30, R31). -/

namespace Sys2Proof

/-- `DRAW_EDGE`, the sprite-blit edge policy the source leaves open (R7, R70): clip at the right and bottom
edges, or wrap every pixel. A model parameter, held in `State.drawEdge`. -/
inductive DrawEdge where
  | clip
  | wrap
  deriving DecidableEq, Repr

/-- `FONTSET`: the 80 bytes that addresses 0x000..0x04F hold after `RESET` (R7, R19). A model parameter, held in
`State.fontset`. -/
abbrev Fontset := Vector Byte 80

/-- The framebuffer `FB[y][x]`: 32 rows of 64 on/off pixels (R23). -/
abbrev Framebuffer := Vector (Vector Bool 64) 32

/-- FREE VALUE (R30; log entry 1): the key vector the host supplies with a `STEP` that `State.ops` does not list,
applied to the count of such draws. No body: nothing can be proved of its value. -/
opaque Config.freeKeys : Nat → Word

/-- FREE VALUE (R31; log entry 1): the random byte the host supplies with a `STEP` that `State.ops` does not list,
applied to the count of such draws. No body: nothing can be proved of its value, its distribution or its
relation to another draw. -/
opaque Config.freeRnd : Nat → Byte

end Sys2Proof
end

