-- ==== Sys2Proof/Machine/Memory.lean ====
section
/-! DEFINITION. The 4096-byte memory `M` (10_state.md rule R19; 20_memory.md rules R39 to R46) as a sparse list in one
canonical form over its reset contents, and the default fontset. -/

namespace Sys2Proof.Machine

/-- Memory: the bytes that differ from the reset contents, as (address, byte) pairs with strictly rising
addresses. -/
abbrev Memory := List Host.Cell

/-- The default `FONTSET`, the table of R19 (log entry 6). -/
def defaultFontset : Fontset := #v[
  0xF0, 0x90, 0x90, 0x90, 0xF0,
  0x20, 0x60, 0x20, 0x20, 0x70,
  0xF0, 0x10, 0xF0, 0x80, 0xF0,
  0xF0, 0x10, 0xF0, 0x10, 0xF0,
  0x90, 0x90, 0xF0, 0x10, 0x10,
  0xF0, 0x80, 0xF0, 0x10, 0xF0,
  0xF0, 0x80, 0xF0, 0x90, 0xF0,
  0xF0, 0x10, 0x20, 0x40, 0x40,
  0xF0, 0x90, 0xF0, 0x90, 0xF0,
  0xF0, 0x90, 0xF0, 0x10, 0xF0,
  0xF0, 0x90, 0xF0, 0x90, 0x90,
  0xE0, 0x90, 0xE0, 0x90, 0xE0,
  0xF0, 0x80, 0x80, 0x80, 0xF0,
  0xE0, 0x90, 0x90, 0x90, 0xE0,
  0xF0, 0x80, 0xF0, 0x80, 0xF0,
  0xF0, 0x80, 0xF0, 0x80, 0x80]

/-- The low 12 bits of an address: every access masks its final address once, at the access (R39). -/
def maskAddr (a : Nat) : Nat := a % 4096

/-- What an address that memory does not list reads as: the reset contents, the fontset at 0x000..0x04F and 0x00
everywhere else (R19, R38, R41). -/
def resetByte (font : Fontset) (a : Nat) : Byte :=
  if h : a < 80 then font[a] else 0x00#8

/-- The byte at one address below 4096. -/
def Memory.read (font : Fontset) : Memory → Nat → Byte
  | [], a => resetByte font a
  | c :: rest, a => if c.1 = a then c.2 else Memory.read font rest a

/-- Drop every cell of one address. -/
def Memory.erase (m : Memory) (a : Nat) : Memory := m.filter fun c => c.1 != a

/-- Put one cell in front of the first cell of a higher address. -/
def Memory.insert (a : Nat) (b : Byte) : Memory → Memory
  | [] => [(a, b)]
  | c :: rest => if a < c.1 then (a, b) :: c :: rest else c :: Memory.insert a b rest

/-- Write one byte, keeping the canonical form: the byte an unlisted address reads as anyway is not listed. -/
def Memory.write (font : Fontset) (a : Nat) (b : Byte) (m : Memory) : Memory :=
  if b = resetByte font a then m.erase a else Memory.insert a b (m.erase a)

/-- The canonical form: addresses strictly rising and below 4096, and no cell equal to what its address would read
as unlisted. -/
abbrev Memory.wf (font : Fontset) (m : Memory) : Prop :=
  m.Pairwise (fun c d => c.1 < d.1) ∧ ∀ c ∈ m, c.1 < 4096 ∧ c.2 ≠ resetByte font c.1

end Sys2Proof.Machine
end

