-- ==== Sys2Proof/Machine/State.lean ====
section
/-! DEFINITION. The whole state of the block (10_state.md rules R13 to R38) as plain data, the operations and results of
its interface (R34, R35), the reasons a model step can stop, and the state after `RESET`. -/

namespace Sys2Proof.Machine

/-- No operation of the block stops the model with a fault. The hardware's four fatal errors (60_exceptions.md rule
R108) are NOT faults here: each ends its operation in a next state that holds the halt record (R109), and the
halted block goes on answering its host (R111). Register, memory and arithmetic accesses cannot fail (R16, R39,
R93). So this type has no constructor (safe). -/
inductive Fault where
  deriving DecidableEq, Repr

/-- Why a step has no transition. -/
inductive Refusal where
  /-- An instruction without a meaning, rejected by name in `exec`'s arm. No arm raises it: all 34 have one. Safe. -/
  | notModelled (mnemonic : String)
  /-- Raised by the host operation `LOAD` (never by an instruction) outside its window: while halted, after the first
  `STEP`, or a second time. The spec gives it no transition (70_reset_and_hazards.md rule R123; 93_implementation_defined.md item
  7). Safe in the model: the run stops; a claim says nothing of a host that loads late. -/
  | loadOutsideWindow
  deriving DecidableEq, Repr

/-- The four fatal errors (60_exceptions.md rule R108). -/
inductive ErrorKind where
  | romTooLarge
  | stackOverflow
  | stackUnderflow
  | unknownInstruction
  deriving DecidableEq, Repr

/-- The operations the host can invoke, with their inputs (10_state.md rule R34). -/
inductive HostOp where
  /-- `STEP(KEYS, RND)`: one fetch-decode-execute (R52) -/
  | step (keys : Word) (rnd : Byte)
  /-- `TICK()`: one timer countdown (R115) -/
  | tick
  /-- `READ_FB()` (R28) -/
  | readFb
  /-- `CLEAR_DIRTY()` (R28) -/
  | clearDirty
  /-- `LOAD(rom)` (R123) -/
  | load (rom : List Byte)
  /-- `RESET(legacy)` (R122) -/
  | reset (legacy : Bool)
  deriving DecidableEq, Repr

/-- What an operation reports to the host (10_state.md rules R34, R35). -/
inductive OpResult where
  /-- nothing: `RESET`, `CLEAR_DIRTY`, or no operation yet -/
  | nothing
  /-- `LOAD` succeeded -/
  | ok
  /-- `STEP`: the instruction completed -/
  | advanced
  /-- `STEP`: FX0A found no key pressed -/
  | blocked
  /-- `STEP` or `LOAD`: ended by the error of this code, or the block was already halted -/
  | halted (code : BitVec 3)
  /-- `TICK`: the tone-off report -/
  | toneOff (event : Bool)
  /-- `READ_FB`: the pair (`FB`, `DIRTY`) -/
  | frame (fb : Framebuffer) (dirty : Bool)
  deriving DecidableEq, Repr

/-- The state. The first group is the aggregate of R13, the second the fixed parameters of R7, the third the
MODEL's own fields (log entries 1 and 2): the block's inputs and outputs as data. -/
structure State where
  /-- `V[0..15]` (R14) -/
  v : Vector Byte 16
  /-- `I` (R17) -/
  i : Word
  /-- `PC` (R18) -/
  pc : Word
  /-- `M[0..4095]` (R19) -/
  mem : Memory
  /-- `S[0..15]`, stack storage (R20) -/
  stack : Vector Word 16
  /-- `SP`, stack depth 0..16 (R20) -/
  sp : Fin 17
  /-- `DT`, delay timer (R21) -/
  dt : Byte
  /-- `ST`, sound timer (R22) -/
  st : Byte
  /-- `FB[0..31][0..63]` (R23) -/
  fb : Framebuffer
  /-- `DIRTY` (R26) -/
  dirty : Bool
  /-- `TONE_OFF` (R27) -/
  toneOff : Bool
  /-- `LEGACY` (R29) -/
  legacy : Bool
  /-- `HALT` (R32) -/
  halt : Bool
  /-- `ERR` (R32, codes of R108) -/
  err : BitVec 3
  /-- `ERR_WORD` (R32) -/
  errWord : Word
  /-- `ERR_PC` (R32) -/
  errPc : Word
  /-- `STARTED` (R33) -/
  started : Bool
  /-- `LOADED` (R33) -/
  loaded : Bool
  /-- parameter `DRAW_EDGE` (R7) -/
  drawEdge : DrawEdge
  /-- parameter `FONTSET` (R7) -/
  fontset : Fontset
  /-- MODEL's own: the host's schedule, the operations still to come, next first (R34: the host's choice) -/
  ops : List HostOp
  /-- MODEL's own: how many `STEP`s have drawn their inputs from the free values of `Config` -/
  draws : Nat
  /-- MODEL's own: the input `KEYS` of the current or last `STEP` (R30) -/
  keys : Word
  /-- MODEL's own: the input `RND` of the current or last `STEP` (R31) -/
  rnd : Byte
  /-- MODEL's own: what the last operation reported to the host (R34, R35) -/
  result : OpResult
  deriving DecidableEq, Repr

/-- Every element at its value after `RESET(legacy)` (R38, R122), for given parameters; the model's own fields are
empty or zero (log entry 5). -/
def State.resetWith (legacy : Bool) (edge : DrawEdge) (font : Fontset) : State where
  v := .replicate 16 0x00#8
  i := 0x0000#16
  pc := 0x0200#16
  mem := []
  stack := .replicate 16 0x0000#16
  sp := 0
  dt := 0x00#8
  st := 0x00#8
  fb := .replicate 32 (.replicate 64 false)
  dirty := false
  toneOff := false
  legacy := legacy
  halt := false
  err := 0#3
  errWord := 0x0000#16
  errPc := 0x0000#16
  started := false
  loaded := false
  drawEdge := edge
  fontset := font
  ops := []
  draws := 0
  keys := 0x0000#16
  rnd := 0x00#8
  result := .nothing

/-- The machine right after reset: `RESET(0)` (modern mode, log entry 4) with the spec's default parameters `CLIP` and the
fontset of R19 (R7). -/
def State.reset : State := State.resetWith false .clip defaultFontset

end Sys2Proof.Machine
end

