-- ==== Sys2Proof/Machine/Ops.lean ====
section
/-! DEFINITION. The named operations every meaning is built from: memory bytes, registers, the stack, the display, the
ends of a step, and raising a fatal error. -/

namespace Sys2Proof.Machine

/-- The outcome of one operation of the block. -/
abbrev StepOutcome := Host.Outcome State Fault Refusal

/-! ### Memory (20_memory.md) -/

/-- `MemRead(a, 1) = M[a & 0xFFF]` (R39). -/
def State.readByte (s : State) (a : Nat) : Byte := Memory.read s.fontset s.mem (maskAddr a)

/-- `MemWrite(a, 1, b)`: `M[a & 0xFFF] <- b` (R39). -/
def State.writeByte (s : State) (a : Nat) (b : Byte) : State :=
  { s with mem := Memory.write s.fontset (maskAddr a) b s.mem }

/-- Byte writes at `a`, `a + 1`, ... in that order, each masking its own address (R45). -/
def State.writeBytes (s : State) (a : Nat) : List Byte → State
  | [] => s
  | b :: bs => State.writeBytes (s.writeByte a b) (a + 1) bs

/-- `Fetch(a)`: two byte reads combined big-endian, with no alignment check (R43, R44, R53). -/
def State.fetch (s : State) (a : Word) : Word := s.readByte a.toNat ++ s.readByte (a.toNat + 1)

/-- The two bytes of an instruction word stored where `PC` fetches (R43). -/
def State.placeWord (s : State) (w : Word) : State :=
  s.writeBytes s.pc.toNat [highByte w, lowByte w]

/-! ### Registers (10_state.md) -/

/-- `V[x] <- b` (R10, R14). -/
def State.setV (s : State) (x : Reg) (b : Byte) : State := { s with v := s.v.set x b }

/-- `I <- w` (R17). -/
def State.setIndex (s : State) (w : Word) : State := { s with i := w }

/-- `PC <- w` (R18). -/
def State.setPc (s : State) (w : Word) : State := { s with pc := w }

/-- The advance `PC <- (PC + 2) mod 65536`, made before any effect of the instruction (R54). -/
def State.advance (s : State) : State := s.setPc (s.pc + 2#16)

/-- A skip: 2 more on the advanced `PC`, modulo 65536, when the condition holds (R18, R80). -/
def State.skipIf (s : State) (c : Bool) : State := s.setPc (if c then s.pc + 2#16 else s.pc)

/-- `DT <- b` (R21). -/
def State.setDelay (s : State) (b : Byte) : State := { s with dt := b }

/-- `ST <- b` (R22). -/
def State.setSound (s : State) (b : Byte) : State := { s with st := b }

/-- `TONE_OFF <- b` (R27). -/
def State.setTone (s : State) (b : Bool) : State := { s with toneOff := b }

/-- `LOADED <- 1` (R33). -/
def State.setLoaded (s : State) : State := { s with loaded := true }

/-! ### The call stack (10_state.md) -/

/-- `S` and `SP` written together (R20). -/
def State.setStack (s : State) (stack : Vector Word 16) (sp : Fin 17) : State := { s with stack := stack, sp := sp }

/-- `Push(w)`, with the error it raises at depth 16 (R24). -/
def State.push (s : State) (w : Word) : Except ErrorKind State :=
  if h : s.sp.val < 16 then
    .ok (s.setStack (s.stack.set s.sp.val w) ⟨s.sp.val + 1, by omega⟩)
  else .error .stackOverflow

/-- `Pop()`, with the error it raises at depth 0 (R25). The popped entry stays in storage (R20). -/
def State.pop (s : State) : Except ErrorKind (Word × State) :=
  if h : 0 < s.sp.val then
    .ok (s.stack[s.sp.val - 1], s.setStack s.stack ⟨s.sp.val - 1, by omega⟩)
  else .error .stackUnderflow

/-! ### The display (10_state.md) -/

/-- `FB[y][x]` (R23). -/
def pixelAt (fb : Framebuffer) (px : Fin 64) (py : Fin 32) : Bool := fb[py][px]

/-- `FB[y][x] <- FB[y][x] ^ 1` (R69). -/
def flipPixel (fb : Framebuffer) (px : Fin 64) (py : Fin 32) : Framebuffer :=
  fb.set py (fb[py].set px (!pixelAt fb px py))

/-- The framebuffer with every pixel off. -/
def blankFrame : Framebuffer := .replicate 32 (.replicate 64 false)

/-- A display mutation: the new framebuffer, and `DIRTY <- 1` whether or not a pixel changed (R26). -/
def State.setDisplay (s : State) (fb : Framebuffer) : State := { s with fb := fb, dirty := true }

/-- `DIRTY <- 0`, which only the renderer and `RESET` do (R26, R28). -/
def State.clearDirty (s : State) : State := { s with dirty := false }

/-! ### The ends of an operation (30_encoding.md rule R52) -/

/-- What the operation reports to the host (R34, R35). -/
def State.finish (s : State) (r : OpResult) : State := { s with result := r }

/-- The instruction completes: all its writes are kept, the result is `Advanced` (R52). -/
def complete (s : State) : StepOutcome := .next (s.finish .advanced)

/-- The numeric code of an error, as `ERR` holds it (R108). -/
def ErrorKind.code : ErrorKind → BitVec 3
  | .romTooLarge => 1#3
  | .stackOverflow => 2#3
  | .stackUnderflow => 3#3
  | .unknownInstruction => 4#3

/-- `raise E`, the ONE way a fatal error is taken (R109). It is applied to the state as it was BEFORE the operation's
writes (with `STARTED` already set, for a `STEP`), so every write of the operation is discarded; then the halt
record is written and the operation reports `Halted(E)`. No vector, no saved state, no mode: the block stops
(R111). There is no return from it beside `RESET`, which is `resetOp` in Machine/HostPort.lean (R112). -/
def State.raise (s : State) (e : ErrorKind) (word addr : Word) : State :=
  { s with halt := true, err := e.code, errWord := word, errPc := addr, result := .halted e.code }

/-- An instruction raises `e`: the halt record names the instruction's word and its address (R108), and `PC` stays at the
instruction (R52). `s` is the state the instruction began in. -/
def raiseIn (s : State) (e : ErrorKind) (i : Instr) : StepOutcome := .next (s.raise e (encode i) s.pc)

/-- The start of a `STEP` that is not halted: its inputs are sampled once (R30, R31) and `STARTED` is set, which is kept
whatever the outcome (R52). -/
def State.beginStep (s : State) (keys : Word) (rnd : Byte) : State :=
  { s with keys := keys, rnd := rnd, started := true }

/-! ### The host's schedule (10_state.md rule R34; log entries 1 and 2) -/

/-- The operation the host invokes next: the head of its schedule, or, when the schedule lists none, a `STEP` whose inputs
are free values. -/
def State.nextOp (s : State) : HostOp :=
  match s.ops with
  | op :: _ => op
  | [] => .step (Config.freeKeys s.draws) (Config.freeRnd s.draws)

/-- The schedule moves on past the operation being invoked. -/
def State.takeOp (s : State) : State :=
  { s with ops := s.ops.tail, draws := if s.ops.isEmpty then s.draws + 1 else s.draws }

end Sys2Proof.Machine
end

