-- ==== Sys2Proof/Machine/Flags.lean ====
section
/-! DEFINITION. Every computation of the flag `VF` (10_state.md rule R15; 42_alu.md rules R87 to R91; 40_display.md rule R69), and
the one way a result and its flag are written. -/

namespace Sys2Proof.Machine

/-- `VF`, the flag register: an ordinary general register as well (R15, R36). -/
def flagReg : Reg := 0xF

/-- A flag as a register value: 1 or 0. -/
def flagByte (c : Bool) : Byte := if c then 0x01#8 else 0x00#8

/-- Carry of 8XY4: 1 iff the exact sum exceeds 255 (R87). -/
def carryFlag (a b : Byte) : Byte := flagByte (decide (a.toNat + b.toNat > 255))

/-- NOT borrow of `a - b` in 8XY5 and 8XY7: 1 iff `a >= b` (R88, R90). -/
def noBorrowFlag (a b : Byte) : Byte := flagByte (decide (a.toNat ≥ b.toNat))

/-- The bit 8XY6 shifts out: bit 0 of the source (R89). -/
def shiftedOutRight (src : Byte) : Byte := src &&& 0x01#8

/-- The bit 8XYE shifts out: bit 7 of the source (R91). -/
def shiftedOutLeft (src : Byte) : Byte := src >>> 7

/-- Write a result and then its flag: `V[x]` first and `VF` last, so that with `x = 0xF` the flag wins (R15). -/
def State.setVWithFlag (s : State) (x : Reg) (b flag : Byte) : State := (s.setV x b).setV flagReg flag

end Sys2Proof.Machine
end

