-- ==== Sys2Proof/Machine/Operands.lean ====
section
/-! DEFINITION. The operand forms: widened immediates, the quirk-selected operands (00_scope.md rule R3), the one data addressing
mode (43_index_memory.md rule R100) and the key inputs (44_keys_timers.md). -/

namespace Sys2Proof.Machine

/-- `zext_16(v)` (R9): no immediate is sign-extended, scaled or shifted (R56). -/
def zext16 {w : Nat} (b : BitVec w) : Word := b.setWidth 16

/-- The effective address of byte `k` of a transfer, before the mask at the access: `I + k` in unbounded arithmetic
(R39, R100). -/
def State.effAddr (s : State) (k : Nat) : Nat := s.i.toNat + k

/-- The source of 8XY6 and 8XYE: `V[y]` in legacy mode, `V[x]` in modern mode (R89, R91). -/
def State.shiftSource (s : State) (x y : Reg) : Byte := if s.legacy then s.v[y] else s.v[x]

/-- The `x` field inside a BNNN's `nnn` (R56: `nnn = x ++ y ++ n`). -/
def xOfNnn (nnn : Addr12) : Reg := (nnn.extractLsb' 8 4).toFin

/-- The `nn` field inside a BNNN's `nnn` (R56). -/
def nnOfNnn (nnn : Addr12) : Byte := nnn.extractLsb' 0 8

/-- The target of BNNN (R79): legacy `nnn + V[0]`, modern `nn + V[x]`; kept in 16 bits without a 12-bit mask. -/
def State.jumpOffsetTarget (s : State) (nnn : Addr12) : Word :=
  if s.legacy then zext16 nnn + zext16 s.v[(0 : Reg)] else zext16 (nnOfNnn nnn) + zext16 s.v[xOfNnn nnn]

/-- The index register after FX55 or FX65: legacy mode advances it by `x + 1` modulo 65536, modern mode leaves it
(R98, R99). -/
def State.indexAfterRange (s : State) (x : Reg) : Word :=
  if s.legacy then BitVec.ofNat 16 (s.i.toNat + x.val + 1) else s.i

/-- Key `k` is pressed: a value of 16 or more names no key and counts as not pressed (R101, R102). -/
def keyPressed (keys : Word) (k : Byte) : Bool := decide (k.toNat < 16) && keys.getLsbD k.toNat

/-- The lowest-numbered pressed key, if any (R103). -/
def lowestKey (keys : Word) : Option (Fin 16) := (List.finRange 16).find? fun k => keys.getLsbD k

/-- The decimal digits of a byte: hundreds, tens, units (R97). -/
def bcdDigits (b : Byte) : List Byte :=
  [BitVec.ofNat 8 (b.toNat / 100), BitVec.ofNat 8 (b.toNat / 10 % 10), BitVec.ofNat 8 (b.toNat % 10)]

end Sys2Proof.Machine
end

