-- ==== Sys2Proof/Machine/Alu.lean ====
section
/-! DEFINITION. Register arithmetic and logic (42_alu.md). Operands are read before any write (00_scope.md rule R11). Every meaning
takes the state with `PC` at the instruction and makes the advance of R54 itself. -/

namespace Sys2Proof.Machine

/-- `6XNN` (R81). -/
def execLdImm (x : Reg) (nn : Byte) (s : State) : StepOutcome := complete (s.advance.setV x nn)

/-- `7XNN` (R82): no flag. -/
def execAddImm (x : Reg) (nn : Byte) (s : State) : StepOutcome :=
  complete (s.advance.setV x (BitVec.ofNat 8 (s.v[x].toNat + nn.toNat)))

/-- `8XY0` (R83). -/
def execLdReg (x y : Reg) (s : State) : StepOutcome := complete (s.advance.setV x s.v[y])

/-- `8XY1` (R84): `VF` is not written. -/
def execOrReg (x y : Reg) (s : State) : StepOutcome := complete (s.advance.setV x (s.v[x] ||| s.v[y]))

/-- `8XY2` (R85): `VF` is not written. -/
def execAndReg (x y : Reg) (s : State) : StepOutcome := complete (s.advance.setV x (s.v[x] &&& s.v[y]))

/-- `8XY3` (R86): `VF` is not written. -/
def execXorReg (x y : Reg) (s : State) : StepOutcome := complete (s.advance.setV x (s.v[x] ^^^ s.v[y]))

/-- `8XY4` (R87). -/
def execAddReg (x y : Reg) (s : State) : StepOutcome :=
  let a := s.v[x]
  let b := s.v[y]
  complete (s.advance.setVWithFlag x (BitVec.ofNat 8 (a.toNat + b.toNat)) (carryFlag a b))

/-- `8XY5` (R88). -/
def execSubReg (x y : Reg) (s : State) : StepOutcome :=
  let a := s.v[x]
  let b := s.v[y]
  complete (s.advance.setVWithFlag x (BitVec.ofNat 8 (a.toNat + 256 - b.toNat)) (noBorrowFlag a b))

/-- `8XY6` (R89). -/
def execShr (x y : Reg) (s : State) : StepOutcome :=
  let src := s.shiftSource x y
  complete (s.advance.setVWithFlag x (src >>> 1) (shiftedOutRight src))

/-- `8XY7` (R90). -/
def execSubnReg (x y : Reg) (s : State) : StepOutcome :=
  let a := s.v[x]
  let b := s.v[y]
  complete (s.advance.setVWithFlag x (BitVec.ofNat 8 (b.toNat + 256 - a.toNat)) (noBorrowFlag b a))

/-- `8XYE` (R91). -/
def execShl (x y : Reg) (s : State) : StepOutcome :=
  let src := s.shiftSource x y
  complete (s.advance.setVWithFlag x (src <<< 1) (shiftedOutLeft src))

/-- `CXNN` (R92): the random byte is an input of the `STEP`, under no law. -/
def execRnd (x : Reg) (nn : Byte) (s : State) : StepOutcome := complete (s.advance.setV x (s.rnd &&& nn))

end Sys2Proof.Machine
end

