-- ==== Sys2Proof/Machine/Control.lean ====
section
/-! DEFINITION. Control transfer (41_control_flow.md): return, jump, call, the register and immediate skips, jump with offset.
Every meaning takes the state with `PC` at the instruction and makes the advance of R54 itself. -/

namespace Sys2Proof.Machine

/-- `00EE` (R72). -/
def execRet (s : State) : StepOutcome :=
  match s.advance.pop with
  | .error e => raiseIn s e .ret
  | .ok (w, t) => complete (t.setPc w)

/-- `1NNN` (R73). -/
def execJp (nnn : Addr12) (s : State) : StepOutcome := complete (s.advance.setPc (zext16 nnn))

/-- `2NNN` (R74): the pushed value is the advanced `PC`. -/
def execCall (nnn : Addr12) (s : State) : StepOutcome :=
  match s.advance.push s.advance.pc with
  | .error e => raiseIn s e (.call nnn)
  | .ok t => complete (t.setPc (zext16 nnn))

/-- `3XNN` (R75). -/
def execSeImm (x : Reg) (nn : Byte) (s : State) : StepOutcome :=
  complete (s.advance.skipIf (decide (s.v[x] = nn)))

/-- `4XNN` (R76). -/
def execSneImm (x : Reg) (nn : Byte) (s : State) : StepOutcome :=
  complete (s.advance.skipIf (decide (s.v[x] ≠ nn)))

/-- `5XY0` (R77). -/
def execSeReg (x y : Reg) (s : State) : StepOutcome :=
  complete (s.advance.skipIf (decide (s.v[x] = s.v[y])))

/-- `9XY0` (R78). -/
def execSneReg (x y : Reg) (s : State) : StepOutcome :=
  complete (s.advance.skipIf (decide (s.v[x] ≠ s.v[y])))

/-- `BNNN` (R79). -/
def execJpOffset (nnn : Addr12) (s : State) : StepOutcome :=
  complete (s.advance.setPc (s.jumpOffsetTarget nnn))

end Sys2Proof.Machine
end

