-- ==== Sys2Proof/Machine/Display.lean ====
section
/-! DEFINITION. The display instructions 00E0 and DXYN (40_display.md). Every meaning takes the state with `PC` at the
instruction and answers the state at the end of its `STEP`: the advance of R54 is its first write. -/

namespace Sys2Proof.Machine

/-- `00E0` (R68). -/
def execCls (s : State) : StepOutcome := complete (s.advance.setDisplay blankFrame)

/-- `Target(px, py)`: the pixel of an unwrapped sprite position, or none when it is clipped (R70). -/
def target (edge : DrawEdge) (px py : Nat) : Option (Fin 64 × Fin 32) :=
  match edge with
  | .clip => if h : px < 64 ∧ py < 32 then some (⟨px, h.1⟩, ⟨py, h.2⟩) else none
  | .wrap => some (⟨px % 64, Nat.mod_lt _ (by decide)⟩, ⟨py % 32, Nat.mod_lt _ (by decide)⟩)

/-- One sprite bit at an unwrapped position: a set bit flips its pixel and collides when it turns the pixel off
(R69). The pair is the framebuffer and the collision so far. -/
def blitBit (edge : DrawEdge) (px py : Nat) (bit : Bool) (acc : Framebuffer × Bool) : Framebuffer × Bool :=
  if bit then
    match target edge px py with
    | none => acc
    | some (x, y) => (flipPixel acc.1 x y, acc.2 || pixelAt acc.1 x y)
  else acc

/-- One sprite row: bit 7 leftmost (R69). -/
def blitRow (edge : DrawEdge) (x0 py : Nat) (b : Byte) (acc : Framebuffer × Bool) : Framebuffer × Bool :=
  (List.range 8).foldl (fun acc c => blitBit edge (x0 + c) py (b.getLsbD (7 - c)) acc) acc

/-- The rows `0 .. n-1` of the sprite at `I`, row `r` read at `(I + r) & 0xFFF` (R69). -/
def State.blit (s : State) (x0 y0 n : Nat) : Framebuffer × Bool :=
  (List.range n).foldl (fun acc r => blitRow s.drawEdge x0 (y0 + r) (s.readByte (s.effAddr r)) acc) (s.fb, false)

/-- The anchor column `V[x] mod 64` (R69). -/
def State.anchorX (s : State) (x : Reg) : Nat := s.v[x].toNat % 64

/-- The anchor row `V[y] mod 32` (R69). -/
def State.anchorY (s : State) (y : Reg) : Nat := s.v[y].toNat % 32

/-- `DXYN` (R69): the coordinates are read before `VF` is written with the collision. -/
def execDrw (x y : Reg) (n : Fin 16) (s : State) : StepOutcome :=
  let drawn := s.blit (s.anchorX x) (s.anchorY y) n.val
  complete ((s.advance.setDisplay drawn.1).setV flagReg (flagByte drawn.2))

end Sys2Proof.Machine
end

