-- ==== Sys2Proof/Machine/Index.lean ====
section
/-! DEFINITION. The index register and memory transfer (43_index_memory.md). Every meaning takes the state with `PC` at the
instruction and makes the advance of R54 itself. -/

namespace Sys2Proof.Machine

/-- `ANNN` (R94). -/
def execLdI (nnn : Addr12) (s : State) : StepOutcome := complete (s.advance.setIndex (zext16 nnn))

/-- `FX1E` (R95): modulo 65536, no overflow flag. -/
def execAddI (x : Reg) (s : State) : StepOutcome :=
  complete (s.advance.setIndex (BitVec.ofNat 16 (s.i.toNat + s.v[x].toNat)))

/-- `FX29` (R96): `5 * V[x]`, not masked to a digit. -/
def execLdF (x : Reg) (s : State) : StepOutcome :=
  complete (s.advance.setIndex (BitVec.ofNat 16 (5 * s.v[x].toNat)))

/-- `FX33` (R97). -/
def execLdB (x : Reg) (s : State) : StepOutcome :=
  complete (s.advance.writeBytes (s.effAddr 0) (bcdDigits s.v[x]))

/-- The registers `V0..Vx` in order, as FX55 stores them (R98). -/
def State.regRange (s : State) (x : Reg) : List Byte := s.v.toList.take (x.val + 1)

/-- `FX55` (R98): the store uses `I` as it was before the instruction. -/
def execLdMemVx (x : Reg) (s : State) : StepOutcome :=
  complete ((s.advance.writeBytes (s.effAddr 0) (s.regRange x)).setIndex (s.indexAfterRange x))

/-- `V0..Vx` from memory at `I`, the registers above `Vx` as they were (R99). The reads do not depend on the
registers, so their order cannot be seen. -/
def State.loadRange (s : State) (x : Reg) : State :=
  { s with v := Vector.ofFn fun k : Fin 16 => if k ≤ x then s.readByte (s.effAddr k) else s.v[k] }

/-- `FX65` (R99). -/
def execLdVxMem (x : Reg) (s : State) : StepOutcome :=
  complete ((s.advance.loadRange x).setIndex (s.indexAfterRange x))

end Sys2Proof.Machine
end

