-- ==== Sys2Proof/Machine/Keys.lean ====
section
/-! DEFINITION. Key input and timer instructions (44_keys_timers.md). `State.keys` is the key vector of the current `STEP` (R30).
Every meaning takes the state with `PC` at the instruction and makes the advance of R54 itself. -/

namespace Sys2Proof.Machine

/-- `EX9E` (R101). -/
def execSkp (x : Reg) (s : State) : StepOutcome :=
  complete (s.advance.skipIf (keyPressed s.keys s.v[x]))

/-- `EXA1` (R102). -/
def execSknp (x : Reg) (s : State) : StepOutcome :=
  complete (s.advance.skipIf (!keyPressed s.keys s.v[x]))

/-- `FX0A` (R103): with no key down the `STEP` commits nothing and reports `Blocked`, so `PC` stays at the FX0A;
else `V[x]` takes the lowest pressed key. -/
def execLdVxK (x : Reg) (s : State) : StepOutcome :=
  .next (match lowestKey s.keys with
    | none => s.finish .blocked
    | some k => (s.advance.setV x (BitVec.ofNat 8 k.val)).finish .advanced)

/-- `FX07` (R104). -/
def execLdVxDt (x : Reg) (s : State) : StepOutcome := complete (s.advance.setV x s.dt)

/-- `FX15` (R105). -/
def execLdDtVx (x : Reg) (s : State) : StepOutcome := complete (s.advance.setDelay s.v[x])

/-- `FX18` (R106): `TONE_OFF` is not changed. -/
def execLdStVx (x : Reg) (s : State) : StepOutcome := complete (s.advance.setSound s.v[x])

end Sys2Proof.Machine
end

