-- ==== Sys2Proof/Machine/HostPort.lean ====
section
/-! DEFINITION. The operations of the block other than `STEP` (10_state.md rule R34): `TICK`, `READ_FB`, `CLEAR_DIRTY`, `LOAD` and
`RESET`. -/

namespace Sys2Proof.Machine

/-- A timer one tick later: a timer at 0 stays at 0 (R115). -/
def countDown (b : Byte) : Byte := BitVec.ofNat 8 (b.toNat - 1)

/-- The tone-off event of a `TICK`: the sound timer goes from 1 to 0 (R116). -/
def toneOffEvent (s : State) : Bool := decide (s.st = 0x01#8)

/-- `TICK()` (R115): a halted block does not count. -/
def tickOp (s : State) : State :=
  if s.halt then s.finish (.toneOff false)
  else (((s.setDelay (countDown s.dt)).setSound (countDown s.st)).setTone (toneOffEvent s)).finish
    (.toneOff (toneOffEvent s))

/-- `READ_FB()` (R28): one atomic snapshot, nothing changes. -/
def readFbOp (s : State) : State := s.finish (.frame s.fb s.dirty)

/-- `CLEAR_DIRTY()` (R28). -/
def clearDirtyOp (s : State) : State := s.clearDirty.finish .nothing

/-- The load window (R33, R123). -/
def State.loadWindow (s : State) : Bool := !s.halt && !s.started && !s.loaded

/-- `LOAD(rom)` (R123): refused outside its window; `RomTooLarge` writes nothing; else the bytes go to 0x200 on. -/
def loadOp (rom : List Byte) (s : State) : StepOutcome :=
  if s.loadWindow then
    .next (if rom.length > 3584 then s.raise .romTooLarge 0x0000#16 0x0000#16
      else (s.writeBytes 0x200 rom).setLoaded.finish .ok)
  else .refused .loadOutsideWindow

/-- `RESET(legacy)` (R122), at any time: every element of the block's state takes its value of R38. The parameters `DRAW_EDGE` and
`FONTSET` and the host's side (its schedule and inputs) stay. The only way out of a halt (R112). -/
def resetOp (legacy : Bool) (s : State) : State :=
  { State.resetWith legacy s.drawEdge s.fontset with ops := s.ops, draws := s.draws, keys := s.keys, rnd := s.rnd }

end Sys2Proof.Machine
end

