-- ==== Sys2Proof/Machine/Engine.lean ====
section
/-! DEFINITION. The execution engine: the `STEP` operation (30_encoding.md rule R52) and the six operations of the block as one
function (10_state.md rule R34). -/

namespace Sys2Proof.Machine

/-- `STEP(KEYS, RND)` (R52): a halted block reports its error again and changes nothing; else fetch, decode, and run the
instruction's rule, an illegal word raising `UnknownInstruction` (R63). -/
def stepOp (keys : Word) (rnd : Byte) (s : State) : StepOutcome :=
  if s.halt then .next (s.finish (.halted s.err))
  else
    let t := s.beginStep keys rnd
    match decode (t.fetch t.pc) with
    | .ok i => exec i t
    | .error (.unknownInstruction w) => .next (t.raise .unknownInstruction w t.pc)

/-- One operation of the block (R34). -/
def runOp (op : HostOp) (s : State) : StepOutcome :=
  match op with
  | .step keys rnd => stepOp keys rnd s
  | .tick => .next (tickOp s)
  | .readFb => .next (readFbOp s)
  | .clearDirty => .next (clearDirtyOp s)
  | .load rom => loadOp rom s
  | .reset legacy => .next (resetOp legacy s)

end Sys2Proof.Machine
end

