-- ==== Sys2Proof/Machine/Step.lean ====
section
/-! DEFINITION. One step of the model: the operation the host invokes next (10_state.md rule R34), and how a probe places an
instruction. -/

namespace Sys2Proof.Machine

/-- One operation of the block, atomic (R34): the head of the host's schedule, or a `STEP` with free inputs when the schedule
lists none (log entries 1 and 2). -/
def step (s : State) : Host.Outcome State Fault Refusal := runOp s.nextOp s.takeOp

/-- `s` with an instruction word (its bits above `nbits` zero) in memory at `PC`, and a `STEP` with the inputs `s` last sampled as
the next operation of a block that is not halted: the very next step fetches and runs exactly this word. -/
def State.withFetchWord (s : State) (nbits w : Nat) : State :=
  { s.placeWord (tableWord nbits w) with ops := .step s.keys s.rnd :: s.ops, halt := false }

end Sys2Proof.Machine
end

