-- ==== Sys2Proof/Safety.lean ====
section
/-! DEFINITION. The terms claims are stated in: what may change (frames), how a step ends, the invariant of the state, and the
declarative form of a sprite. -/

namespace Sys2Proof.Machine

/-! ### Frames -/

/-- What one instruction may write beside `PC` and its result. Everything not listed stays. -/
structure Writes where
  /-- general registers -/
  regs : List Reg := []
  /-- the index register -/
  index : Bool := false
  /-- the memory run written: its first address, before the mask, and its length in bytes -/
  store : Nat × Nat := (0, 0)
  /-- `S` and `SP` -/
  stack : Bool := false
  /-- `DT` -/
  delay : Bool := false
  /-- `ST` -/
  sound : Bool := false
  /-- `FB` and `DIRTY` -/
  display : Bool := false
  /-- `HALT`, `ERR`, `ERR_WORD` and `ERR_PC` -/
  halt : Bool := false
  deriving DecidableEq, Repr

/-- `t` is `s` except for what `w` lists, `PC` and the result. No instruction writes `TONE_OFF`, `LEGACY`, the load-window bits or the
parameters (R27, R29, R33, R7), and none touches the host's side. -/
structure Frame (w : Writes) (s t : State) : Prop where
  regs : ∀ r : Reg, r ∉ w.regs → t.v[r] = s.v[r]
  index : w.index = false → t.i = s.i
  mem : ∀ a : Nat, (∀ k, k < w.store.2 → maskAddr a ≠ maskAddr (w.store.1 + k)) → t.readByte a = s.readByte a
  stack : w.stack = false → t.stack = s.stack ∧ t.sp = s.sp
  delay : w.delay = false → t.dt = s.dt
  sound : w.sound = false → t.st = s.st
  display : w.display = false → t.fb = s.fb ∧ t.dirty = s.dirty
  halt : w.halt = false → t.halt = s.halt ∧ t.err = s.err ∧ t.errWord = s.errWord ∧ t.errPc = s.errPc
  toneOff : t.toneOff = s.toneOff
  legacy : t.legacy = s.legacy
  window : t.started = s.started ∧ t.loaded = s.loaded
  params : t.drawEdge = s.drawEdge ∧ t.fontset = s.fontset
  host : t.ops = s.ops ∧ t.draws = s.draws ∧ t.keys = s.keys ∧ t.rnd = s.rnd

/-! ### How a step ends (R52) -/

/-- The step reported `Advanced` and left `PC` at the next instruction (R18, R54). -/
def AdvancedPast (s t : State) : Prop := t.result = .advanced ∧ t.pc.toNat = (s.pc.toNat + 2) % 65536

/-- The step reported `Advanced` and left `PC` 2 past the next instruction exactly when `skipped` holds (R80). -/
def AdvancedSkipping (skipped : Prop) (s t : State) : Prop :=
  t.result = .advanced ∧ (skipped → t.pc.toNat = (s.pc.toNat + 4) % 65536) ∧
    (¬skipped → t.pc.toNat = (s.pc.toNat + 2) % 65536)

/-- The step raised the error of code `code` on the instruction word `word` at `s.pc`: the halt record is written, `PC` is still at the
instruction, and nothing else is changed (R108, R109). -/
def Raised (code : BitVec 3) (word : Word) (s t : State) : Prop :=
  t.result = .halted code ∧ t.halt = true ∧ t.err = code ∧ t.errWord = word ∧ t.errPc = s.pc ∧ t.pc = s.pc ∧
    Frame { halt := true } s t

/-- The next step is a `STEP` of a block that is not halted, and the word at `PC` decodes to `i`. -/
def Executes (s : State) (i : Instr) : Prop :=
  s.halt = false ∧ (∃ keys rnd, s.nextOp = .step keys rnd) ∧ decode (s.fetch s.pc) = .ok i

/-! ### The invariant of the state -/

/-- The halted instruction is still the one at `PC`, and a `STEP` was made (R52, R109). -/
def State.haltedAtInstruction (s : State) : Prop :=
  s.started = true ∧ s.pc = s.errPc ∧ s.fetch s.pc = s.errWord

/-- The halt record tells the truth: all zero while not halted, and one of the four rows of R108 while halted, each with the state
that caused it still in place (R32, R108, R109). -/
def State.haltRecordTrue (s : State) : Prop :=
  (s.halt = false → s.err = 0#3 ∧ s.errWord = 0#16 ∧ s.errPc = 0#16) ∧
  (s.halt = true →
    (s.err = 1#3 ∧ s.errWord = 0#16 ∧ s.errPc = 0#16 ∧ s.started = false ∧ s.loaded = false) ∨
    (s.err = 2#3 ∧ s.sp.val = 16 ∧ (∃ nnn, decode s.errWord = .ok (.call nnn)) ∧ s.haltedAtInstruction) ∨
    (s.err = 3#3 ∧ s.sp.val = 0 ∧ s.errWord = 0x00EE#16 ∧ s.haltedAtInstruction) ∨
    (s.err = 4#3 ∧ legalWord s.errWord = false ∧ s.haltedAtInstruction))

/-- The invariant: memory is in canonical form, and the halt record tells the truth. -/
def State.Inv (s : State) : Prop := Memory.wf s.fontset s.mem ∧ s.haltRecordTrue

/-! ### Reset (R38, R122) -/

/-- Every element of the block's state has its value after `RESET(legacy)`: the table of R38, element by element. -/
def AfterReset (legacy : Bool) (t : State) : Prop :=
  t.pc = 0x0200#16 ∧ (∀ a (h : a < 80), t.readByte a = t.fontset[a]) ∧
  (∀ a, 80 ≤ a → a < 4096 → t.readByte a = 0x00#8) ∧
  (∀ r : Reg, t.v[r] = 0x00#8) ∧ t.i = 0x0000#16 ∧ t.sp.val = 0 ∧ (∀ k : Fin 16, t.stack[k] = 0x0000#16) ∧
  t.dt = 0x00#8 ∧ t.st = 0x00#8 ∧ (∀ px py, pixelAt t.fb px py = false) ∧ t.dirty = false ∧ t.toneOff = false ∧
  t.legacy = legacy ∧ t.halt = false ∧ t.err = 0#3 ∧ t.errWord = 0x0000#16 ∧ t.errPc = 0x0000#16 ∧
  t.started = false ∧ t.loaded = false

/-! ### Which instruction names what (R15, R17) -/

/-- The instruction writes `VF` as a flag: exactly 8XY4, 8XY5, 8XY6, 8XY7, 8XYE and DXYN (R15). -/
def writesFlag : Instr → Bool
  | .addReg _ _ | .subReg _ _ | .shr _ _ | .subnReg _ _ | .shl _ _ | .drw _ _ _ => true
  | .cls | .ret | .jp _ | .call _ | .seImm _ _ | .sneImm _ _ | .seReg _ _ | .ldImm _ _ | .addImm _ _ | .ldReg _ _
  | .orReg _ _ | .andReg _ _ | .xorReg _ _ | .sneReg _ _ | .ldI _ | .jpOffset _ | .rnd _ _ | .skp _ | .sknp _
  | .ldVxDt _ | .ldVxK _ | .ldDtVx _ | .ldStVx _ | .addI _ | .ldF _ | .ldB _ | .ldMemVx _ | .ldVxMem _ => false

/-- The instruction names register `r` as a destination. -/
def namesDestination (r : Reg) : Instr → Bool
  | .ldImm x _ | .addImm x _ | .ldReg x _ | .orReg x _ | .andReg x _ | .xorReg x _ | .addReg x _ | .subReg x _ | .shr x _
  | .subnReg x _ | .shl x _ | .rnd x _ | .ldVxDt x | .ldVxK x => decide (r = x)
  | .ldVxMem x => decide (r ≤ x)
  | .cls | .ret | .jp _ | .call _ | .seImm _ _ | .sneImm _ _ | .seReg _ _ | .sneReg _ _ | .ldI _ | .jpOffset _ | .drw _ _ _
  | .skp _ | .sknp _ | .ldDtVx _ | .ldStVx _ | .addI _ | .ldF _ | .ldB _ | .ldMemVx _ => false

/-- The instruction reads the quirk flag: exactly 8XY6, 8XYE, BNNN, FX55 and FX65 (R29). -/
def readsLegacy : Instr → Bool
  | .shr _ _ | .shl _ _ | .jpOffset _ | .ldMemVx _ | .ldVxMem _ => true
  | .cls | .ret | .jp _ | .call _ | .seImm _ _ | .sneImm _ _ | .seReg _ _ | .ldImm _ _ | .addImm _ _ | .ldReg _ _
  | .orReg _ _ | .andReg _ _ | .xorReg _ _ | .addReg _ _ | .subReg _ _ | .subnReg _ _ | .sneReg _ _ | .ldI _ | .rnd _ _
  | .drw _ _ _ | .skp _ | .sknp _ | .ldVxDt _ | .ldVxK _ | .ldDtVx _ | .ldStVx _ | .addI _ | .ldF _ | .ldB _ => false

/-- The instruction reads the key vector: exactly EX9E, EXA1 and FX0A (R30). -/
def readsKeys : Instr → Bool
  | .skp _ | .sknp _ | .ldVxK _ => true
  | .cls | .ret | .jp _ | .call _ | .seImm _ _ | .sneImm _ _ | .seReg _ _ | .ldImm _ _ | .addImm _ _ | .ldReg _ _
  | .orReg _ _ | .andReg _ _ | .xorReg _ _ | .addReg _ _ | .subReg _ _ | .shr _ _ | .subnReg _ _ | .shl _ _ | .sneReg _ _
  | .ldI _ | .jpOffset _ | .rnd _ _ | .drw _ _ _ | .ldVxDt _ | .ldDtVx _ | .ldStVx _ | .addI _ | .ldF _ | .ldB _
  | .ldMemVx _ | .ldVxMem _ => false

/-! ### The sprite, declaratively (R69, R70) -/

/-- Pixel (`px`, `py`) is under a set bit of the `n`-row sprite at `I`, drawn at the wrapped anchor (`V[x] mod 64`, `V[y] mod 32`)
under the state's edge policy. -/
def SpriteCovers (s : State) (x y : Reg) (n : Fin 16) (px : Fin 64) (py : Fin 32) : Prop :=
  ∃ r c : Nat, r < n.val ∧ c < 8 ∧ (s.readByte (s.i.toNat + r)).getLsbD (7 - c) = true ∧
    match s.drawEdge with
    | .clip => s.v[x].toNat % 64 + c = px.val ∧ s.v[y].toNat % 32 + r = py.val
    | .wrap => (s.v[x].toNat % 64 + c) % 64 = px.val ∧ (s.v[y].toNat % 32 + r) % 32 = py.val

end Sys2Proof.Machine
end

