-- ==== Sys2Proof/Certificates/Slice0/Obligations.lean ====
section
/-! DEFINITION. The statements about the model, from the spec's numbered rules. A statement of an instruction's result is also its
completion statement (its conclusion is that exec answers a next state) and its frame. In all of them `exec`'s state is the one with `PC` at
the instruction. -/

open Sys2Proof Sys2Proof.Machine

/-! ### Encoding and fetch -/

/-- Decoding an encoded instruction gives it back, every operand at every value (R55 to R62). -/
def Obligations.DecodeOfEncodeIsIdentity : Prop := ∀ i : Instr, decode (encode i) = .ok i

/-- A word that decodes is the encoding of what it decodes to: no bit of a legal word is ignored (R55 to R62). -/
def Obligations.EncodeOfDecodeIsIdentity : Prop := ∀ (w : Word) (i : Instr), decode w = .ok i → encode i = w

/-- R64: every word is either one instruction or illegal, and the illegal words are those R63 lists. -/
def Obligations.EveryWordDecodesOrIsIllegal : Prop :=
  ∀ w : Word, ((∃ i, decode w = .ok i) ↔ legalWord w = true) ∧
    (decode w = .error (.unknownInstruction w) ↔ legalWord w = false)

/-- The words of the source's own examples and one of every other family decode to their instructions (95_test_vectors.md E11,
opcode_table.json). -/
def Obligations.SampleWordsDecode : Prop :=
  decode 0x00E0#16 = .ok .cls ∧ decode 0x6005#16 = .ok (.ldImm 0 0x05#8) ∧ decode 0x7003#16 = .ok (.addImm 0 0x03#8) ∧
    decode 0xA204#16 = .ok (.ldI 0x204#12) ∧ decode 0xD005#16 = .ok (.drw 0 0 5) ∧ decode 0x2300#16 = .ok (.call 0x300#12) ∧
    decode 0x812E#16 = .ok (.shl 1 2) ∧ decode 0xE1A1#16 = .ok (.sknp 1) ∧ decode 0xF265#16 = .ok (.ldVxMem 2)

/-- R53: the fetch combines two bytes big-endian, at the low 12 bits of `a` and of `a + 1`, at any `a`. -/
def Obligations.FetchCombinesTwoBytesBigEndian : Prop :=
  ∀ (s : State) (a : Word), (s.fetch a).toNat = 256 * (s.readByte (a.toNat % 4096)).toNat +
    (s.readByte ((a.toNat + 1) % 4096)).toNat

/-! ### The step -/

/-- R52: a `STEP` of a block that is not halted runs the instruction the bytes at `PC` decode to. `step` adds, before `exec`: the schedule
moves on (`takeOp`), the inputs are sampled and `STARTED` is set (`beginStep`). -/
def Obligations.StepRunsDecodedInstruction : Prop :=
  ∀ (s : State) (i : Instr) (keys : Word) (rnd : Byte), s.nextOp = .step keys rnd → s.halt = false →
    decode (s.fetch s.pc) = .ok i → step s = exec i (s.takeOp.beginStep keys rnd)

/-- R63: an illegal word raises `UnknownInstruction` with the word as its information, and nothing of the step but `STARTED` is kept. -/
def Obligations.IllegalWordRaisesUnknownInstruction : Prop :=
  ∀ (s : State) (keys : Word) (rnd : Byte), s.nextOp = .step keys rnd → s.halt = false →
    legalWord (s.fetch s.pc) = false →
    ∃ t, step s = .next t ∧ t.started = true ∧ Raised 4#3 (s.fetch s.pc) (s.takeOp.beginStep keys rnd) t

/-- R114: no instruction ever faults or is refused, whatever the state; R35: a `STEP`'s result is `Advanced`, or `Blocked` (FX0A with no key
down), or `Halted` (2NNN at depth 16, 00EE at depth 0). -/
def Obligations.EveryInstructionAdvancesBlocksOrHalts : Prop :=
  ∀ (i : Instr) (s : State), ∃ t, exec i s = .next t ∧
    ((t.result = .advanced ∧ t.halt = s.halt) ∨
     (t.result = .blocked ∧ (∃ x, i = .ldVxK x) ∧ s.keys = 0#16 ∧ t.halt = s.halt) ∨
     (t.result = .halted 2#3 ∧ (∃ nnn, i = .call nnn) ∧ s.sp.val = 16 ∧ t.halt = true) ∨
     (t.result = .halted 3#3 ∧ i = .ret ∧ s.sp.val = 0 ∧ t.halt = true))

/-- Every operation of the block has a next state, except a `LOAD` outside its window, which is refused (R34, R123). -/
def Obligations.OnlyLateLoadIsRefused : Prop :=
  ∀ s : State, (∃ t, step s = .next t) ∨
    (∃ rom, s.nextOp = .load rom ∧ (s.halt = true ∨ s.started = true ∨ s.loaded = true) ∧
      step s = .refused .loadOutsideWindow)

/-! ### Memory and the invariant -/

/-- R39: an access uses the low 12 bits of its address, and R47: a read returns the latest write to the same byte. -/
def Obligations.ReadReturnsLatestWriteAtMaskedAddress : Prop :=
  ∀ (s : State) (a c : Nat) (b : Byte),
    (s.writeByte a b).readByte c = if a % 4096 = c % 4096 then b else s.readByte (c % 4096)

/-- R50: bytes FX55 or FX33 wrote are what a fetch from there sees. -/
def Obligations.StoredBytesAreFetched : Prop :=
  (∀ (x : Reg) (s : State), 1 ≤ x → ∃ t, exec (.ldMemVx x) s = .next t ∧
    t.fetch s.i = s.v[(0 : Reg)] ++ s.v[(1 : Reg)]) ∧
  (∀ (x : Reg) (s : State), ∃ t, exec (.ldB x) s = .next t ∧
    t.fetch s.i = BitVec.ofNat 16 (256 * (s.v[x].toNat / 100) + s.v[x].toNat / 10 % 10))

/-- Two memories in canonical form over one fontset that read the same everywhere are equal data (the model's own form of R19, log entry 12). -/
def Obligations.CanonicalMemoriesAreDeterminedByReads : Prop :=
  ∀ (font : Fontset) (m m' : Memory), Memory.wf font m → Memory.wf font m' →
    (∀ a, a < 4096 → Memory.read font m a = Memory.read font m' a) → m = m'

/-- Every step keeps the invariant: memory stays canonical, and the halt record tells the truth (R32, R108, R109). -/
def Obligations.StepKeepsInvariant : Prop := ∀ s t : State, s.Inv → step s = .next t → t.Inv

/-- The invariant holds after reset, for every value of the parameters. -/
def Obligations.InvariantHoldsAtReset : Prop :=
  State.reset.Inv ∧ ∀ (legacy : Bool) (edge : DrawEdge) (font : Fontset), (State.resetWith legacy edge font).Inv

/-! ### Reset, load and the host's operations -/

/-- R122: `RESET` sets every element to its value of R38 (all but `PC` and memory are the spec's decision D12), at any time. That
`DRAW_EDGE` and `FONTSET` stay is the model's choice (log entry 3). `State.reset` is such a state with `LEGACY = 0` (log entry 4). -/
def Obligations.ResetSetsEveryElement : Prop :=
  (∀ (s : State) (legacy : Bool), s.nextOp = .reset legacy →
    ∃ t, step s = .next t ∧ AfterReset legacy t ∧ t.drawEdge = s.drawEdge ∧ t.fontset = s.fontset) ∧
  AfterReset false State.reset

/-- R123: in its window `LOAD` copies up to 3584 bytes to 0x200 on; a longer one raises `RomTooLarge` and writes nothing; outside its window
it has no transition. -/
def Obligations.LoadCopiesRomOrRaises : Prop :=
  ∀ (s : State) (rom : List Byte), s.nextOp = .load rom →
    (s.halt = false → s.started = false → s.loaded = false → rom.length ≤ 3584 →
      ∃ t, step s = .next t ∧ t.result = .ok ∧ t.loaded = true ∧ t.pc = s.pc ∧
        (∀ k (h : k < rom.length), t.readByte (0x200 + k) = rom[k]) ∧
        Frame { store := (0x200, rom.length) } { s.takeOp with loaded := true } t) ∧
    (s.halt = false → s.started = false → s.loaded = false → 3584 < rom.length →
      step s = .next { s.takeOp with
        halt := true, err := 1#3, errWord := 0#16, errPc := 0#16, result := .halted 1#3 }) ∧
    (s.halt = true ∨ s.started = true ∨ s.loaded = true → step s = .refused .loadOutsideWindow)

/-- R115: `TICK` decrements each nonzero timer, reports the tone-off event and touches nothing else; a halted block does not count. -/
def Obligations.TickCountsBothTimersDown : Prop :=
  ∀ s : State, s.nextOp = .tick →
    (s.halt = true → step s = .next { s.takeOp with result := .toneOff false }) ∧
    (s.halt = false → ∃ t, step s = .next t ∧
      t.dt.toNat = s.dt.toNat - 1 ∧ t.st.toNat = s.st.toNat - 1 ∧
      (s.st.toNat = 1 → t.toneOff = true) ∧ (s.st.toNat ≠ 1 → t.toneOff = false) ∧
      t.result = .toneOff t.toneOff ∧
      t = { s.takeOp with dt := t.dt, st := t.st, toneOff := t.toneOff, result := t.result })

/-- R116: `TONE_OFF` holds until the next `TICK` (or `RESET`); in particular FX18 never produces the event. -/
def Obligations.ToneOffHoldsUntilNextTick : Prop :=
  ∀ s t : State, step s = .next t → s.nextOp ≠ .tick → (∀ legacy, s.nextOp ≠ .reset legacy) → t.toneOff = s.toneOff

/-- R28 (the spec's decision D34): `READ_FB` answers the pair and changes nothing; `CLEAR_DIRTY` clears the flag and changes nothing else. -/
def Obligations.RendererReadsAndClearsDirty : Prop :=
  ∀ s : State,
    (s.nextOp = .readFb → step s = .next { s.takeOp with result := .frame s.fb s.dirty }) ∧
    (s.nextOp = .clearDirty → step s = .next { s.takeOp with dirty := false, result := .nothing })

/-- R32: while halted, `STEP` reports the stored error and `TICK` reports no event (the spec's decision D2), and both change
nothing beside the host's schedule and the report. -/
def Obligations.HaltedStepAndTickChangeNothing : Prop :=
  ∀ s : State, s.halt = true →
    (∀ keys rnd, s.nextOp = .step keys rnd → step s = .next { s.takeOp with result := .halted s.err }) ∧
    (s.nextOp = .tick → step s = .next { s.takeOp with result := .toneOff false })

/-- R125: after a halt only `RESET` changes the state, but for `CLEAR_DIRTY`'s flag. -/
def Obligations.OnlyResetLeavesHalt : Prop :=
  ∀ s t : State, s.halt = true → step s = .next t → (∀ legacy, s.nextOp ≠ .reset legacy) →
    t.halt = true ∧ t = { s.takeOp with dirty := t.dirty, result := t.result } ∧
      (t.dirty ≠ s.dirty → s.nextOp = .clearDirty)

/-- R33: `STARTED` is set by a `STEP`, `LOADED` by a successful `LOAD`, and nothing but `RESET` clears either. -/
def Obligations.LoadWindowBits : Prop :=
  ∀ s t : State, s.halt = false → step s = .next t → (∀ legacy, s.nextOp ≠ .reset legacy) →
    (t.started = true ↔ s.started = true ∨ ∃ keys rnd, s.nextOp = .step keys rnd) ∧
    (t.loaded = true ↔ s.loaded = true ∨ ∃ rom : List Byte, s.nextOp = .load rom ∧ rom.length ≤ 3584)

/-! ### Errors -/

/-- R108: a block comes to be halted in exactly four ways, each with its code, word and address. -/
def Obligations.ExactlyFourErrorConditions : Prop :=
  ∀ s t : State, s.halt = false → step s = .next t →
    (t.halt = true ↔
      (∃ rom : List Byte, s.nextOp = .load rom ∧ 3584 < rom.length) ∨
      (∃ nnn, Executes s (.call nnn) ∧ s.sp.val = 16) ∨
      (Executes s .ret ∧ s.sp.val = 0) ∨
      (∃ keys rnd, s.nextOp = .step keys rnd ∧ legalWord (s.fetch s.pc) = false)) ∧
    (t.halt = true →
      (∀ rom : List Byte, s.nextOp = .load rom → t.err = 1#3 ∧ t.errWord = 0#16 ∧ t.errPc = 0#16) ∧
      (∀ nnn, Executes s (.call nnn) → t.err = 2#3 ∧ t.errWord = s.fetch s.pc ∧ t.errPc = s.pc) ∧
      (Executes s .ret → t.err = 3#3 ∧ t.errWord = 0x00EE#16 ∧ t.errPc = s.pc) ∧
      (∀ keys rnd, s.nextOp = .step keys rnd → legalWord (s.fetch s.pc) = false →
        t.err = 4#3 ∧ t.errWord = s.fetch s.pc ∧ t.errPc = s.pc))

/-- R109 (the spec's decision D3): an error is precise. Every write of the operation is discarded but `STARTED`; beside the halt record
only the host's side (its schedule, the inputs it passed, the report) differs. -/
def Obligations.ErrorsArePrecise : Prop :=
  ∀ s t : State, s.halt = false → step s = .next t → t.halt = true →
    t = { s with
      halt := true, err := t.err, errWord := t.errWord, errPc := t.errPc, result := .halted t.err, started := t.started,
      ops := t.ops, draws := t.draws, keys := t.keys, rnd := t.rnd } ∧
    (t.started ≠ s.started → ∃ keys rnd, s.nextOp = .step keys rnd)

/-! ### Display (40_display.md) -/

/-- R68: every pixel off, and `DIRTY` set on a blank screen too (the spec's decision D11). -/
def Obligations.ClearScreenTurnsEveryPixelOff : Prop :=
  ∀ s : State, decode 0x00E0#16 = .ok .cls ∧
    ∃ t, exec .cls s = .next t ∧ AdvancedPast s t ∧ (∀ px py, pixelAt t.fb px py = false) ∧ t.dirty = true ∧
      Frame { display := true } s t

/-- R69 and R70: DXYN flips exactly the pixels the sprite covers, under either edge policy; `VF` is 1 if a
covered pixel was on, else 0. Height 0 and coordinates in `VF` are the spec's decision D10. -/
def Obligations.DrawFlipsCoveredPixels : Prop :=
  ∀ (x y : Reg) (n : Fin 16) (s : State), decode (wordXYN 0xD#4 x y n) = .ok (.drw x y n) ∧
    ∃ t, exec (.drw x y n) s = .next t ∧ AdvancedPast s t ∧
      (∀ px py, (SpriteCovers s x y n px py → pixelAt t.fb px py = !pixelAt s.fb px py) ∧
        (¬SpriteCovers s x y n px py → pixelAt t.fb px py = pixelAt s.fb px py)) ∧
      ((∃ px py, SpriteCovers s x y n px py ∧ pixelAt s.fb px py = true) → t.v[(0xF : Reg)] = 0x01#8) ∧
      ((¬∃ px py, SpriteCovers s x y n px py ∧ pixelAt s.fb px py = true) → t.v[(0xF : Reg)] = 0x00#8) ∧
      t.dirty = true ∧ Frame { regs := [0xF], display := true } s t

/-- R71: drawing twice restores the framebuffer, and the second `VF` is 1 exactly when the first draw turned a pixel on; on a blank screen a
sprite with an on-screen bit gives 0 then 1. `t'` is the state of the second draw: only what the draw reads is as the first left it. -/
def Obligations.DrawTwiceRestoresFrame : Prop :=
  ∀ (x y : Reg) (n : Fin 16) (s : State), x ≠ 0xF → y ≠ 0xF → ∃ t, exec (.drw x y n) s = .next t ∧
    ∀ t' : State, t'.fb = t.fb → t'.v[x] = t.v[x] → t'.v[y] = t.v[y] → t'.i = t.i → t'.drawEdge = t.drawEdge →
      (∀ r, r < n.val → t'.readByte (t'.i.toNat + r) = t.readByte (t.i.toNat + r)) →
      ∃ u, exec (.drw x y n) t' = .next u ∧ u.fb = s.fb ∧
        ((∃ px py, pixelAt s.fb px py = false ∧ pixelAt t.fb px py = true) → u.v[(0xF : Reg)] = 0x01#8) ∧
        ((¬∃ px py, pixelAt s.fb px py = false ∧ pixelAt t.fb px py = true) → u.v[(0xF : Reg)] = 0x00#8) ∧
        ((∀ px py, pixelAt s.fb px py = false) → (∃ px py, SpriteCovers s x y n px py) →
          t.v[(0xF : Reg)] = 0x00#8 ∧ u.v[(0xF : Reg)] = 0x01#8)

/-- R23 and R26: only 00E0, DXYN and `RESET` change the framebuffer; only `CLEAR_DIRTY` and `RESET` clear `DIRTY`. -/
def Obligations.OnlyClearAndDrawChangeDisplay : Prop :=
  ∀ s t : State, step s = .next t →
    (t.fb ≠ s.fb → (∃ legacy, s.nextOp = .reset legacy) ∨ Executes s .cls ∨ ∃ x y n, Executes s (.drw x y n)) ∧
    (s.dirty = true → t.dirty = false → s.nextOp = .clearDirty ∨ ∃ legacy, s.nextOp = .reset legacy) ∧
    (Executes s .cls ∨ (∃ x y n, Executes s (.drw x y n)) → t.dirty = true)

/-! ### Control transfer (41_control_flow.md) -/

/-- R72: 00EE pops the return address, and raises `StackUnderflow` at depth 0. -/
def Obligations.ReturnPopsOrRaisesUnderflow : Prop :=
  ∀ s : State, decode 0x00EE#16 = .ok .ret ∧
    (∀ h : 0 < s.sp.val, ∃ t, exec .ret s = .next t ∧ t.result = .advanced ∧ t.pc = s.stack[s.sp.val - 1] ∧
      t.sp.val = s.sp.val - 1 ∧ t.stack = s.stack ∧ Frame { stack := true } s t) ∧
    (s.sp.val = 0 → ∃ t, exec .ret s = .next t ∧ Raised 3#3 0x00EE#16 s t)

/-- R73: the target is absolute and `nnn` is zero-extended. -/
def Obligations.JumpReplacesPc : Prop :=
  ∀ (nnn : Addr12) (s : State), decode (wordNNN 0x1#4 nnn) = .ok (.jp nnn) ∧
    ∃ t, exec (.jp nnn) s = .next t ∧ t.result = .advanced ∧ t.pc.toNat = nnn.toNat ∧ Frame {} s t

/-- R74: 2NNN pushes its address plus 2 and jumps, and raises `StackOverflow` at depth 16. -/
def Obligations.CallPushesOrRaisesOverflow : Prop :=
  ∀ (nnn : Addr12) (s : State), decode (wordNNN 0x2#4 nnn) = .ok (.call nnn) ∧
    (∀ h : s.sp.val < 16, ∃ t, exec (.call nnn) s = .next t ∧ t.result = .advanced ∧ t.pc.toNat = nnn.toNat ∧
      t.sp.val = s.sp.val + 1 ∧ (t.stack[s.sp.val]).toNat = (s.pc.toNat + 2) % 65536 ∧
      (∀ k : Fin 16, k.val ≠ s.sp.val → t.stack[k] = s.stack[k]) ∧ Frame { stack := true } s t) ∧
    (s.sp.val = 16 → ∃ t, exec (.call nnn) s = .next t ∧ Raised 2#3 (wordNNN 0x2#4 nnn) s t)

/-- A return from a call, whatever ran between as long as it left the stack as the call did, goes to the instruction after the call and
restores the depth (R72's "exact pre-call PC", R74). -/
def Obligations.ReturnAfterCallRestoresPc : Prop :=
  ∀ (nnn : Addr12) (s : State), s.sp.val < 16 → ∃ t, exec (.call nnn) s = .next t ∧
    ∀ t' : State, t'.stack = t.stack → t'.sp = t.sp →
      ∃ u, exec .ret t' = .next u ∧ u.pc.toNat = (s.pc.toNat + 2) % 65536 ∧ u.sp = s.sp

/-- R75 and R76. -/
def Obligations.ImmediateSkipsCompare : Prop :=
  ∀ (x : Reg) (nn : Byte) (s : State),
    (decode (wordXNN 0x3#4 x nn) = .ok (.seImm x nn) ∧
      ∃ t, exec (.seImm x nn) s = .next t ∧ AdvancedSkipping (s.v[x].toNat = nn.toNat) s t ∧ Frame {} s t) ∧
    (decode (wordXNN 0x4#4 x nn) = .ok (.sneImm x nn) ∧
      ∃ t, exec (.sneImm x nn) s = .next t ∧ AdvancedSkipping (s.v[x].toNat ≠ nn.toNat) s t ∧ Frame {} s t)

/-- R77 and R78. -/
def Obligations.RegisterSkipsCompare : Prop :=
  ∀ (x y : Reg) (s : State),
    (decode (wordXYN 0x5#4 x y 0) = .ok (.seReg x y) ∧
      ∃ t, exec (.seReg x y) s = .next t ∧ AdvancedSkipping (s.v[x].toNat = s.v[y].toNat) s t ∧ Frame {} s t) ∧
    (decode (wordXYN 0x9#4 x y 0) = .ok (.sneReg x y) ∧
      ∃ t, exec (.sneReg x y) s = .next t ∧ AdvancedSkipping (s.v[x].toNat ≠ s.v[y].toNat) s t ∧ Frame {} s t)

/-- R79: legacy `nnn + V0`, modern `nn + Vx`, both kept in 16 bits without a mask (the spec's decisions D4 and D17). -/
def Obligations.JumpWithOffsetAddsRegister : Prop :=
  ∀ (nnn : Addr12) (s : State), decode (wordNNN 0xB#4 nnn) = .ok (.jpOffset nnn) ∧
    ∃ t, exec (.jpOffset nnn) s = .next t ∧ t.result = .advanced ∧
      (s.legacy = true → t.pc.toNat = nnn.toNat + s.v[(0 : Reg)].toNat) ∧
      (s.legacy = false → ∀ (x : Reg) (nn : Byte), nnn.toNat = x.val * 256 + nn.toNat →
        t.pc.toNat = nn.toNat + s.v[x].toNat) ∧ Frame {} s t

/-- R20: no instruction but 2NNN and 00EE reaches the call stack (and `RESET` empties it). -/
def Obligations.OnlyCallAndReturnTouchStack : Prop :=
  ∀ s t : State, step s = .next t → (t.stack ≠ s.stack ∨ t.sp ≠ s.sp) →
    (∃ legacy, s.nextOp = .reset legacy) ∨ Executes s .ret ∨ ∃ nnn, Executes s (.call nnn)

/-! ### Register arithmetic and logic (42_alu.md) -/

/-- R81, R82 and R83: load immediate, add immediate modulo 256 with no flag, register move. -/
def Obligations.LoadAddMoveWriteOneRegister : Prop :=
  ∀ (x y : Reg) (nn : Byte) (s : State),
    (decode (wordXNN 0x6#4 x nn) = .ok (.ldImm x nn) ∧
      ∃ t, exec (.ldImm x nn) s = .next t ∧ AdvancedPast s t ∧ t.v[x] = nn ∧ Frame { regs := [x] } s t) ∧
    (decode (wordXNN 0x7#4 x nn) = .ok (.addImm x nn) ∧
      ∃ t, exec (.addImm x nn) s = .next t ∧ AdvancedPast s t ∧ t.v[x].toNat = (s.v[x].toNat + nn.toNat) % 256 ∧
        Frame { regs := [x] } s t) ∧
    (decode (wordXYN 0x8#4 x y 0) = .ok (.ldReg x y) ∧
      ∃ t, exec (.ldReg x y) s = .next t ∧ AdvancedPast s t ∧ t.v[x] = s.v[y] ∧ Frame { regs := [x] } s t)

/-- R84, R85 and R86: bit by bit, and `VF` is not written as a flag (the spec's decision D8). -/
def Obligations.LogicWorksBitwiseWithoutFlag : Prop :=
  ∀ (x y : Reg) (s : State),
    (decode (wordXYN 0x8#4 x y 1) = .ok (.orReg x y) ∧
      ∃ t, exec (.orReg x y) s = .next t ∧ AdvancedPast s t ∧
        (∀ k, k < 8 → t.v[x].getLsbD k = (s.v[x].getLsbD k || s.v[y].getLsbD k)) ∧ Frame { regs := [x] } s t) ∧
    (decode (wordXYN 0x8#4 x y 2) = .ok (.andReg x y) ∧
      ∃ t, exec (.andReg x y) s = .next t ∧ AdvancedPast s t ∧
        (∀ k, k < 8 → t.v[x].getLsbD k = (s.v[x].getLsbD k && s.v[y].getLsbD k)) ∧ Frame { regs := [x] } s t) ∧
    (decode (wordXYN 0x8#4 x y 3) = .ok (.xorReg x y) ∧
      ∃ t, exec (.xorReg x y) s = .next t ∧ AdvancedPast s t ∧
        (∀ k, k < 8 → t.v[x].getLsbD k = (s.v[x].getLsbD k != s.v[y].getLsbD k)) ∧ Frame { regs := [x] } s t)

/-- R87. With `x = 0xF` the flag is what `VF` holds (the spec's decision D7). -/
def Obligations.AddSetsCarry : Prop :=
  ∀ (x y : Reg) (s : State), decode (wordXYN 0x8#4 x y 4) = .ok (.addReg x y) ∧
    ∃ t, exec (.addReg x y) s = .next t ∧ AdvancedPast s t ∧
      (x ≠ 0xF → t.v[x].toNat = (s.v[x].toNat + s.v[y].toNat) % 256) ∧
      (t.v[(0xF : Reg)].toNat = if s.v[x].toNat + s.v[y].toNat > 255 then 1 else 0) ∧
      Frame { regs := [x, 0xF] } s t

/-- R88 and R90: the flag is NOT borrow. With `x = 0xF` the flag is what `VF` holds (the spec's decision D7). -/
def Obligations.SubtractSetsNotBorrow : Prop :=
  ∀ (x y : Reg) (s : State),
    (decode (wordXYN 0x8#4 x y 5) = .ok (.subReg x y) ∧
      ∃ t, exec (.subReg x y) s = .next t ∧ AdvancedPast s t ∧
        (x ≠ 0xF → t.v[x].toNat = (s.v[x].toNat + 256 - s.v[y].toNat) % 256) ∧
        (t.v[(0xF : Reg)].toNat = if s.v[x].toNat ≥ s.v[y].toNat then 1 else 0) ∧
        Frame { regs := [x, 0xF] } s t) ∧
    (decode (wordXYN 0x8#4 x y 7) = .ok (.subnReg x y) ∧
      ∃ t, exec (.subnReg x y) s = .next t ∧ AdvancedPast s t ∧
        (x ≠ 0xF → t.v[x].toNat = (s.v[y].toNat + 256 - s.v[x].toNat) % 256) ∧
        (t.v[(0xF : Reg)].toNat = if s.v[y].toNat ≥ s.v[x].toNat then 1 else 0) ∧
        Frame { regs := [x, 0xF] } s t)

/-- R89 and R91: the source is `V[y]` in legacy mode and `V[x]` in modern mode; `VF` is the bit shifted out, with
`x = 0xF` too (the spec's decision D7). -/
def Obligations.ShiftsPutOutgoingBitInFlag : Prop :=
  ∀ (x y : Reg) (s : State) (src : Nat),
    (s.legacy = true → src = s.v[y].toNat) → (s.legacy = false → src = s.v[x].toNat) →
    (decode (wordXYN 0x8#4 x y 6) = .ok (.shr x y) ∧
      ∃ t, exec (.shr x y) s = .next t ∧ AdvancedPast s t ∧ (x ≠ 0xF → t.v[x].toNat = src / 2) ∧
        t.v[(0xF : Reg)].toNat = src % 2 ∧ Frame { regs := [x, 0xF] } s t) ∧
    (decode (wordXYN 0x8#4 x y 0xE) = .ok (.shl x y) ∧
      ∃ t, exec (.shl x y) s = .next t ∧ AdvancedPast s t ∧ (x ≠ 0xF → t.v[x].toNat = 2 * src % 256) ∧
        t.v[(0xF : Reg)].toNat = src / 128 ∧ Frame { regs := [x, 0xF] } s t)

/-- R92: for every random byte, since `s` is any state. -/
def Obligations.RandomIsMaskedByImmediate : Prop :=
  ∀ (x : Reg) (nn : Byte) (s : State), decode (wordXNN 0xC#4 x nn) = .ok (.rnd x nn) ∧
    ∃ t, exec (.rnd x nn) s = .next t ∧ AdvancedPast s t ∧
      (∀ k, k < 8 → t.v[x].getLsbD k = (s.rnd.getLsbD k && nn.getLsbD k)) ∧ Frame { regs := [x] } s t

/-- R15: `VF` is written as a side effect by exactly the six flag instructions, and every other general register only as a named
destination. -/
def Obligations.OnlyFlagInstructionsWriteVfUnnamed : Prop :=
  ∀ (i : Instr) (s t : State) (r : Reg), exec i s = .next t → t.v[r] ≠ s.v[r] →
    namesDestination r i = true ∨ (r = 0xF ∧ writesFlag i = true)

/-! ### The index register and memory transfer (43_index_memory.md) -/

/-- R94, R95 and R96: FX1E is modulo 65536 (the spec's decision D4), and FX29 does not mask its digit (D18). -/
def Obligations.IndexIsSetAddedAndLookedUp : Prop :=
  ∀ (nnn : Addr12) (x : Reg) (s : State),
    (decode (wordNNN 0xA#4 nnn) = .ok (.ldI nnn) ∧
      ∃ t, exec (.ldI nnn) s = .next t ∧ AdvancedPast s t ∧ t.i.toNat = nnn.toNat ∧ Frame { index := true } s t) ∧
    (decode (wordXNN 0xF#4 x 0x1E#8) = .ok (.addI x) ∧
      ∃ t, exec (.addI x) s = .next t ∧ AdvancedPast s t ∧ t.i.toNat = (s.i.toNat + s.v[x].toNat) % 65536 ∧
        Frame { index := true } s t) ∧
    (decode (wordXNN 0xF#4 x 0x29#8) = .ok (.ldF x) ∧
      ∃ t, exec (.ldF x) s = .next t ∧ AdvancedPast s t ∧ t.i.toNat = 5 * s.v[x].toNat ∧ Frame { index := true } s t)

/-- R97: three digits at `I`, `I + 1`, `I + 2`, each address masked. -/
def Obligations.BcdStoresThreeDigits : Prop :=
  ∀ (x : Reg) (s : State), decode (wordXNN 0xF#4 x 0x33#8) = .ok (.ldB x) ∧
    ∃ t, exec (.ldB x) s = .next t ∧ AdvancedPast s t ∧
      (t.readByte (s.effAddr 0)).toNat = s.v[x].toNat / 100 ∧
      (t.readByte (s.effAddr 1)).toNat = s.v[x].toNat / 10 % 10 ∧
      (t.readByte (s.effAddr 2)).toNat = s.v[x].toNat % 10 ∧ Frame { store := (s.effAddr 0, 3) } s t

/-- R98: `V0..Vx` to memory at `I`; legacy mode then advances `I` by `x + 1` modulo 65536. -/
def Obligations.RangeStoreWritesRegisters : Prop :=
  ∀ (x : Reg) (s : State), decode (wordXNN 0xF#4 x 0x55#8) = .ok (.ldMemVx x) ∧
    ∃ t, exec (.ldMemVx x) s = .next t ∧ AdvancedPast s t ∧
      (∀ k : Reg, k ≤ x → t.readByte (s.effAddr k) = s.v[k]) ∧
      (s.legacy = true → t.i.toNat = (s.i.toNat + x.val + 1) % 65536) ∧
      Frame { index := s.legacy, store := (s.effAddr 0, x.val + 1) } s t

/-- R99: `V0..Vx` from memory at `I`; legacy mode then advances `I` by `x + 1` modulo 65536. -/
def Obligations.RangeLoadReadsRegisters : Prop :=
  ∀ (x : Reg) (s : State), decode (wordXNN 0xF#4 x 0x65#8) = .ok (.ldVxMem x) ∧
    ∃ t, exec (.ldVxMem x) s = .next t ∧ AdvancedPast s t ∧
      (∀ k : Reg, k ≤ x → t.v[k] = s.readByte (s.effAddr k)) ∧
      (s.legacy = true → t.i.toNat = (s.i.toNat + x.val + 1) % 65536) ∧
      Frame { regs := (List.finRange 16).filter (· ≤ x), index := s.legacy } s t

/-- R17: `I` is written by ANNN, FX1E, FX29, in legacy mode only by FX55 and FX65, and by `RESET`. -/
def Obligations.OnlyIndexInstructionsWriteIndex : Prop :=
  ∀ s t : State, step s = .next t → t.i ≠ s.i →
    (∃ legacy, s.nextOp = .reset legacy) ∨ (∃ nnn, Executes s (.ldI nnn)) ∨ (∃ x, Executes s (.addI x)) ∨
      (∃ x, Executes s (.ldF x)) ∨ (s.legacy = true ∧ ∃ x, Executes s (.ldMemVx x) ∨ Executes s (.ldVxMem x))

/-- R40: the writers of memory are FX33, FX55, `LOAD` and `RESET`. -/
def Obligations.OnlyStoresAndLoadWriteMemory : Prop :=
  ∀ (s t : State) (a : Nat), step s = .next t → t.readByte a ≠ s.readByte a →
    (∃ legacy, s.nextOp = .reset legacy) ∨ (∃ rom, s.nextOp = .load rom) ∨
      (∃ x, Executes s (.ldB x)) ∨ ∃ x, Executes s (.ldMemVx x)

/-! ### Keys and timers (44_keys_timers.md) -/

/-- R101 and R102: a register value of 16 or more names no key and counts as not pressed (the spec's decision D16). -/
def Obligations.KeySkipsTestPressedKey : Prop :=
  ∀ (x : Reg) (s : State),
    (decode (wordXNN 0xE#4 x 0x9E#8) = .ok (.skp x) ∧
      ∃ t, exec (.skp x) s = .next t ∧
        AdvancedSkipping (s.v[x].toNat < 16 ∧ s.keys.getLsbD s.v[x].toNat = true) s t ∧ Frame {} s t) ∧
    (decode (wordXNN 0xE#4 x 0xA1#8) = .ok (.sknp x) ∧
      ∃ t, exec (.sknp x) s = .next t ∧
        AdvancedSkipping (¬(s.v[x].toNat < 16 ∧ s.keys.getLsbD s.v[x].toNat = true)) s t ∧ Frame {} s t)

/-- R103: with a key down `V[x]` takes the lowest pressed key (which key is the spec's decision D15); with none the step commits nothing:
`PC` stays at the FX0A and the result is `Blocked`. -/
def Obligations.KeyWaitStoresLowestKeyOrBlocks : Prop :=
  ∀ (x : Reg) (s : State), decode (wordXNN 0xF#4 x 0x0A#8) = .ok (.ldVxK x) ∧
    (s.keys ≠ 0#16 → ∃ t, exec (.ldVxK x) s = .next t ∧ AdvancedPast s t ∧ t.v[x].toNat < 16 ∧
      s.keys.getLsbD t.v[x].toNat = true ∧ (∀ j, j < t.v[x].toNat → s.keys.getLsbD j = false) ∧
      Frame { regs := [x] } s t) ∧
    (s.keys = 0#16 → ∃ t, exec (.ldVxK x) s = .next t ∧ t.result = .blocked ∧ t.pc = s.pc ∧ Frame {} s t)

/-- R104, R105 and R106: FX18 leaves `TONE_OFF` alone (the spec's decision D20). -/
def Obligations.TimersAreReadAndSet : Prop :=
  ∀ (x : Reg) (s : State),
    (decode (wordXNN 0xF#4 x 0x07#8) = .ok (.ldVxDt x) ∧
      ∃ t, exec (.ldVxDt x) s = .next t ∧ AdvancedPast s t ∧ t.v[x] = s.dt ∧ Frame { regs := [x] } s t) ∧
    (decode (wordXNN 0xF#4 x 0x15#8) = .ok (.ldDtVx x) ∧
      ∃ t, exec (.ldDtVx x) s = .next t ∧ AdvancedPast s t ∧ t.dt = s.v[x] ∧ Frame { delay := true } s t) ∧
    (decode (wordXNN 0xF#4 x 0x18#8) = .ok (.ldStVx x) ∧
      ∃ t, exec (.ldStVx x) s = .next t ∧ AdvancedPast s t ∧ t.st = s.v[x] ∧ Frame { sound := true } s t)

/-- R117: decrementing is not tied to instruction dispatch. A `STEP` changes `DT` only by FX15 and `ST` only by FX18. -/
def Obligations.StepsDoNotCountTimers : Prop :=
  ∀ (s t : State) (keys : Word) (rnd : Byte), s.nextOp = .step keys rnd → step s = .next t →
    (t.dt ≠ s.dt → ∃ x, Executes s (.ldDtVx x)) ∧ (t.st ≠ s.st → ∃ x, Executes s (.ldStVx x))

/-! ### What an instruction cannot see -/

/-- R29: `LEGACY` is loaded at `RESET` and constant until the next one (so no instruction writes it), and it is read by 8XY6, 8XYE, BNNN, FX55
and FX65 and by nothing else: every other instruction runs the same under either value. -/
def Obligations.LegacyIsLoadedByResetAndReadByFive : Prop :=
  (∀ s t : State, step s = .next t →
    (∀ legacy, s.nextOp = .reset legacy → t.legacy = legacy) ∧
    ((∀ legacy, s.nextOp ≠ .reset legacy) → t.legacy = s.legacy)) ∧
  (∀ (i : Instr) (s t : State) (b : Bool), readsLegacy i = false → exec i s = .next t →
    exec i { s with legacy := b } = .next { t with legacy := b })

/-- The parameters `DRAW_EDGE` and `FONTSET` (R7) never change. That `RESET` keeps them too is the model's choice (log entry 3). -/
def Obligations.ParametersNeverChange : Prop :=
  ∀ s t : State, step s = .next t → t.drawEdge = s.drawEdge ∧ t.fontset = s.fontset

/-- R30: `KEYS` is read only by EX9E, EXA1 and FX0A. -/
def Obligations.OnlyKeyInstructionsReadKeys : Prop :=
  ∀ (i : Instr) (s t : State) (keys : Word), readsKeys i = false → exec i s = .next t →
    exec i { s with keys := keys } = .next { t with keys := keys }

/-- R31: `RND` is read only by CXNN. -/
def Obligations.OnlyRandomReadsRnd : Prop :=
  ∀ (i : Instr) (s t : State) (rnd : Byte), (∀ x nn, i ≠ .rnd x nn) → exec i s = .next t →
    exec i { s with rnd := rnd } = .next { t with rnd := rnd }

/-- R22: no instruction reads `ST`; FX18 overwrites it whatever it was. -/
def Obligations.NoInstructionReadsSoundTimer : Prop :=
  ∀ (i : Instr) (s t : State) (b : Byte), exec i s = .next t →
    ((∀ x, i ≠ .ldStVx x) → exec i { s with st := b } = .next { t with st := b }) ∧
    ((∃ x, i = .ldStVx x) → exec i { s with st := b } = .next t)
end

