-- ==== Sys2Proof/Laws/Decode.lean ====
section
/-! SUPPORT. The three word layouts and the fields of a word as arithmetic on the word's number; the fields of each layout; every
word as each layout of its own fields. -/

namespace Sys2Proof

/-! ### Layouts and fields as numbers -/

/-- The number of an appended pair of bit vectors. -/
theorem toNat_append_eq {m n : Nat} (a : BitVec m) (b : BitVec n) : (a ++ b).toNat = a.toNat * 2 ^ n + b.toNat := by
  rw [BitVec.toNat_append, ← Nat.shiftLeft_add_eq_or_of_lt b.isLt, Nat.shiftLeft_eq]

theorem wordNNN_toNat (op : BitVec 4) (a : Addr12) : (wordNNN op a).toNat = op.toNat * 0x1000 + a.toNat :=
  toNat_append_eq op a

theorem wordXNN_toNat (op : BitVec 4) (x : Reg) (nn : Byte) :
    (wordXNN op x nn).toNat = op.toNat * 0x1000 + x.val * 0x100 + nn.toNat := by
  have h : (wordXNN op x nn).toNat = (op ++ (BitVec.ofFin x : BitVec 4) ++ nn).toNat := rfl
  have hx : (BitVec.ofFin x : BitVec 4).toNat = x.val := rfl
  rw [h, toNat_append_eq, toNat_append_eq, hx]
  omega

theorem wordXYN_toNat (op : BitVec 4) (x y : Reg) (n : Fin 16) :
    (wordXYN op x y n).toNat = op.toNat * 0x1000 + x.val * 0x100 + y.val * 0x10 + n.val := by
  have h : (wordXYN op x y n).toNat =
    (op ++ (BitVec.ofFin x : BitVec 4) ++ (BitVec.ofFin y : BitVec 4) ++ (BitVec.ofFin n : BitVec 4)).toNat := rfl
  have hx : (BitVec.ofFin x : BitVec 4).toNat = x.val := rfl
  have hy : (BitVec.ofFin y : BitVec 4).toNat = y.val := rfl
  have hn : (BitVec.ofFin n : BitVec 4).toNat = n.val := rfl
  rw [h, toNat_append_eq, toNat_append_eq, toNat_append_eq, hx, hy, hn]
  omega

theorem opField_toNat (w : Word) : (opField w).toNat = w.toNat / 0x1000 := by
  rw [opField, BitVec.extractLsb'_toNat, Nat.shiftRight_eq_div_pow]
  have := w.isLt
  omega

theorem xField_val (w : Word) : (xField w).val = w.toNat / 0x100 % 0x10 := by
  have h : (xField w).val = (w.extractLsb' 8 4).toNat := rfl
  rw [h, BitVec.extractLsb'_toNat, Nat.shiftRight_eq_div_pow]

theorem yField_val (w : Word) : (yField w).val = w.toNat / 0x10 % 0x10 := by
  have h : (yField w).val = (w.extractLsb' 4 4).toNat := rfl
  rw [h, BitVec.extractLsb'_toNat, Nat.shiftRight_eq_div_pow]

theorem nField_val (w : Word) : (nField w).val = w.toNat % 0x10 := by
  have h : (nField w).val = (w.extractLsb' 0 4).toNat := rfl
  rw [h, BitVec.extractLsb'_toNat, Nat.shiftRight_zero]

theorem nnField_toNat (w : Word) : (nnField w).toNat = w.toNat % 0x100 := by
  rw [nnField, BitVec.extractLsb'_toNat, Nat.shiftRight_zero]

theorem nnnField_toNat (w : Word) : (nnnField w).toNat = w.toNat % 0x1000 := by
  rw [nnnField, BitVec.extractLsb'_toNat, Nat.shiftRight_zero]

/-! ### The fields of each layout -/

@[simp] theorem opField_wordNNN (op : BitVec 4) (a : Addr12) : opField (wordNNN op a) = op :=
  BitVec.eq_of_toNat_eq (by rw [opField_toNat, wordNNN_toNat]; omega)

@[simp] theorem nnnField_wordNNN (op : BitVec 4) (a : Addr12) : nnnField (wordNNN op a) = a :=
  BitVec.eq_of_toNat_eq (by rw [nnnField_toNat, wordNNN_toNat]; omega)

@[simp] theorem opField_wordXNN (op : BitVec 4) (x : Reg) (nn : Byte) : opField (wordXNN op x nn) = op :=
  BitVec.eq_of_toNat_eq (by rw [opField_toNat, wordXNN_toNat]; omega)

@[simp] theorem xField_wordXNN (op : BitVec 4) (x : Reg) (nn : Byte) : xField (wordXNN op x nn) = x :=
  Fin.ext (by rw [xField_val, wordXNN_toNat]; omega)

@[simp] theorem nnField_wordXNN (op : BitVec 4) (x : Reg) (nn : Byte) : nnField (wordXNN op x nn) = nn :=
  BitVec.eq_of_toNat_eq (by rw [nnField_toNat, wordXNN_toNat]; omega)

@[simp] theorem opField_wordXYN (op : BitVec 4) (x y : Reg) (n : Fin 16) : opField (wordXYN op x y n) = op :=
  BitVec.eq_of_toNat_eq (by rw [opField_toNat, wordXYN_toNat]; omega)

@[simp] theorem xField_wordXYN (op : BitVec 4) (x y : Reg) (n : Fin 16) : xField (wordXYN op x y n) = x :=
  Fin.ext (by rw [xField_val, wordXYN_toNat]; omega)

@[simp] theorem yField_wordXYN (op : BitVec 4) (x y : Reg) (n : Fin 16) : yField (wordXYN op x y n) = y :=
  Fin.ext (by rw [yField_val, wordXYN_toNat]; omega)

@[simp] theorem nField_wordXYN (op : BitVec 4) (x y : Reg) (n : Fin 16) : nField (wordXYN op x y n) = n :=
  Fin.ext (by rw [nField_val, wordXYN_toNat]; omega)

/-! ### A word as each layout of its fields -/

theorem wordNNN_fields (w : Word) : wordNNN (opField w) (nnnField w) = w :=
  BitVec.eq_of_toNat_eq (by rw [wordNNN_toNat, opField_toNat, nnnField_toNat]; omega)

theorem wordXNN_fields (w : Word) : wordXNN (opField w) (xField w) (nnField w) = w :=
  BitVec.eq_of_toNat_eq (by rw [wordXNN_toNat, opField_toNat, xField_val, nnField_toNat]; omega)

theorem wordXYN_fields (w : Word) : wordXYN (opField w) (xField w) (yField w) (nField w) = w :=
  BitVec.eq_of_toNat_eq (by rw [wordXYN_toNat, opField_toNat, xField_val, yField_val, nField_val]; omega)

/-- The two bytes of a word, high byte first, are the word. -/
@[simp] theorem highByte_append_lowByte (w : Word) : highByte w ++ lowByte w = w :=
  BitVec.eq_of_toNat_eq (by
    rw [toNat_append_eq, highByte, lowByte, BitVec.extractLsb'_toNat, BitVec.extractLsb'_toNat,
      Nat.shiftRight_eq_div_pow, Nat.shiftRight_zero]
    omega)

end Sys2Proof
end

