-- ==== Sys2Proof/Laws/State.lean ====
section
/-! SUPPORT. One lemma per field per update of State, true by rfl, so that no later proof unfolds a record update. The composite
updates (advance, skip, result with flag) rewrite to these. -/

namespace Sys2Proof.Machine

@[simp] theorem State.advance_eq (s : State) : s.advance = s.setPc (s.pc + 2#16) := rfl

@[simp] theorem State.skipIf_eq (s : State) (c : Bool) : s.skipIf c = s.setPc (if c then s.pc + 2#16 else s.pc) := rfl

@[simp] theorem State.setVWithFlag_eq (s : State) (x : Reg) (b f : Byte) :
    s.setVWithFlag x b f = (s.setV x b).setV flagReg f := rfl

/-! ### `setV` -/

@[simp] theorem State.setV_v (s : State) (x : Reg) (b : Byte) : (s.setV x b).v = s.v.set x b := rfl
@[simp] theorem State.setV_i (s : State) (x : Reg) (b : Byte) : (s.setV x b).i = s.i := rfl
@[simp] theorem State.setV_pc (s : State) (x : Reg) (b : Byte) : (s.setV x b).pc = s.pc := rfl
@[simp] theorem State.setV_mem (s : State) (x : Reg) (b : Byte) : (s.setV x b).mem = s.mem := rfl
@[simp] theorem State.setV_stack (s : State) (x : Reg) (b : Byte) : (s.setV x b).stack = s.stack := rfl
@[simp] theorem State.setV_sp (s : State) (x : Reg) (b : Byte) : (s.setV x b).sp = s.sp := rfl
@[simp] theorem State.setV_dt (s : State) (x : Reg) (b : Byte) : (s.setV x b).dt = s.dt := rfl
@[simp] theorem State.setV_st (s : State) (x : Reg) (b : Byte) : (s.setV x b).st = s.st := rfl
@[simp] theorem State.setV_fb (s : State) (x : Reg) (b : Byte) : (s.setV x b).fb = s.fb := rfl
@[simp] theorem State.setV_dirty (s : State) (x : Reg) (b : Byte) : (s.setV x b).dirty = s.dirty := rfl
@[simp] theorem State.setV_toneOff (s : State) (x : Reg) (b : Byte) : (s.setV x b).toneOff = s.toneOff := rfl
@[simp] theorem State.setV_legacy (s : State) (x : Reg) (b : Byte) : (s.setV x b).legacy = s.legacy := rfl
@[simp] theorem State.setV_halt (s : State) (x : Reg) (b : Byte) : (s.setV x b).halt = s.halt := rfl
@[simp] theorem State.setV_err (s : State) (x : Reg) (b : Byte) : (s.setV x b).err = s.err := rfl
@[simp] theorem State.setV_errWord (s : State) (x : Reg) (b : Byte) : (s.setV x b).errWord = s.errWord := rfl
@[simp] theorem State.setV_errPc (s : State) (x : Reg) (b : Byte) : (s.setV x b).errPc = s.errPc := rfl
@[simp] theorem State.setV_started (s : State) (x : Reg) (b : Byte) : (s.setV x b).started = s.started := rfl
@[simp] theorem State.setV_loaded (s : State) (x : Reg) (b : Byte) : (s.setV x b).loaded = s.loaded := rfl
@[simp] theorem State.setV_drawEdge (s : State) (x : Reg) (b : Byte) : (s.setV x b).drawEdge = s.drawEdge := rfl
@[simp] theorem State.setV_fontset (s : State) (x : Reg) (b : Byte) : (s.setV x b).fontset = s.fontset := rfl
@[simp] theorem State.setV_ops (s : State) (x : Reg) (b : Byte) : (s.setV x b).ops = s.ops := rfl
@[simp] theorem State.setV_draws (s : State) (x : Reg) (b : Byte) : (s.setV x b).draws = s.draws := rfl
@[simp] theorem State.setV_keys (s : State) (x : Reg) (b : Byte) : (s.setV x b).keys = s.keys := rfl
@[simp] theorem State.setV_rnd (s : State) (x : Reg) (b : Byte) : (s.setV x b).rnd = s.rnd := rfl
@[simp] theorem State.setV_result (s : State) (x : Reg) (b : Byte) : (s.setV x b).result = s.result := rfl
@[simp] theorem State.setV_readByte (s : State) (x : Reg) (b : Byte) (n : Nat) : (s.setV x b).readByte n = s.readByte n := rfl
@[simp] theorem State.setV_fetch (s : State) (x : Reg) (b : Byte) (n : Word) : (s.setV x b).fetch n = s.fetch n := rfl

/-! ### `setIndex` -/

@[simp] theorem State.setIndex_v (s : State) (w : Word) : (s.setIndex w).v = s.v := rfl
@[simp] theorem State.setIndex_i (s : State) (w : Word) : (s.setIndex w).i = w := rfl
@[simp] theorem State.setIndex_pc (s : State) (w : Word) : (s.setIndex w).pc = s.pc := rfl
@[simp] theorem State.setIndex_mem (s : State) (w : Word) : (s.setIndex w).mem = s.mem := rfl
@[simp] theorem State.setIndex_stack (s : State) (w : Word) : (s.setIndex w).stack = s.stack := rfl
@[simp] theorem State.setIndex_sp (s : State) (w : Word) : (s.setIndex w).sp = s.sp := rfl
@[simp] theorem State.setIndex_dt (s : State) (w : Word) : (s.setIndex w).dt = s.dt := rfl
@[simp] theorem State.setIndex_st (s : State) (w : Word) : (s.setIndex w).st = s.st := rfl
@[simp] theorem State.setIndex_fb (s : State) (w : Word) : (s.setIndex w).fb = s.fb := rfl
@[simp] theorem State.setIndex_dirty (s : State) (w : Word) : (s.setIndex w).dirty = s.dirty := rfl
@[simp] theorem State.setIndex_toneOff (s : State) (w : Word) : (s.setIndex w).toneOff = s.toneOff := rfl
@[simp] theorem State.setIndex_legacy (s : State) (w : Word) : (s.setIndex w).legacy = s.legacy := rfl
@[simp] theorem State.setIndex_halt (s : State) (w : Word) : (s.setIndex w).halt = s.halt := rfl
@[simp] theorem State.setIndex_err (s : State) (w : Word) : (s.setIndex w).err = s.err := rfl
@[simp] theorem State.setIndex_errWord (s : State) (w : Word) : (s.setIndex w).errWord = s.errWord := rfl
@[simp] theorem State.setIndex_errPc (s : State) (w : Word) : (s.setIndex w).errPc = s.errPc := rfl
@[simp] theorem State.setIndex_started (s : State) (w : Word) : (s.setIndex w).started = s.started := rfl
@[simp] theorem State.setIndex_loaded (s : State) (w : Word) : (s.setIndex w).loaded = s.loaded := rfl
@[simp] theorem State.setIndex_drawEdge (s : State) (w : Word) : (s.setIndex w).drawEdge = s.drawEdge := rfl
@[simp] theorem State.setIndex_fontset (s : State) (w : Word) : (s.setIndex w).fontset = s.fontset := rfl
@[simp] theorem State.setIndex_ops (s : State) (w : Word) : (s.setIndex w).ops = s.ops := rfl
@[simp] theorem State.setIndex_draws (s : State) (w : Word) : (s.setIndex w).draws = s.draws := rfl
@[simp] theorem State.setIndex_keys (s : State) (w : Word) : (s.setIndex w).keys = s.keys := rfl
@[simp] theorem State.setIndex_rnd (s : State) (w : Word) : (s.setIndex w).rnd = s.rnd := rfl
@[simp] theorem State.setIndex_result (s : State) (w : Word) : (s.setIndex w).result = s.result := rfl
@[simp] theorem State.setIndex_readByte (s : State) (w : Word) (n : Nat) : (s.setIndex w).readByte n = s.readByte n := rfl
@[simp] theorem State.setIndex_fetch (s : State) (w : Word) (n : Word) : (s.setIndex w).fetch n = s.fetch n := rfl

/-! ### `setPc` -/

@[simp] theorem State.setPc_v (s : State) (w : Word) : (s.setPc w).v = s.v := rfl
@[simp] theorem State.setPc_i (s : State) (w : Word) : (s.setPc w).i = s.i := rfl
@[simp] theorem State.setPc_pc (s : State) (w : Word) : (s.setPc w).pc = w := rfl
@[simp] theorem State.setPc_mem (s : State) (w : Word) : (s.setPc w).mem = s.mem := rfl
@[simp] theorem State.setPc_stack (s : State) (w : Word) : (s.setPc w).stack = s.stack := rfl
@[simp] theorem State.setPc_sp (s : State) (w : Word) : (s.setPc w).sp = s.sp := rfl
@[simp] theorem State.setPc_dt (s : State) (w : Word) : (s.setPc w).dt = s.dt := rfl
@[simp] theorem State.setPc_st (s : State) (w : Word) : (s.setPc w).st = s.st := rfl
@[simp] theorem State.setPc_fb (s : State) (w : Word) : (s.setPc w).fb = s.fb := rfl
@[simp] theorem State.setPc_dirty (s : State) (w : Word) : (s.setPc w).dirty = s.dirty := rfl
@[simp] theorem State.setPc_toneOff (s : State) (w : Word) : (s.setPc w).toneOff = s.toneOff := rfl
@[simp] theorem State.setPc_legacy (s : State) (w : Word) : (s.setPc w).legacy = s.legacy := rfl
@[simp] theorem State.setPc_halt (s : State) (w : Word) : (s.setPc w).halt = s.halt := rfl
@[simp] theorem State.setPc_err (s : State) (w : Word) : (s.setPc w).err = s.err := rfl
@[simp] theorem State.setPc_errWord (s : State) (w : Word) : (s.setPc w).errWord = s.errWord := rfl
@[simp] theorem State.setPc_errPc (s : State) (w : Word) : (s.setPc w).errPc = s.errPc := rfl
@[simp] theorem State.setPc_started (s : State) (w : Word) : (s.setPc w).started = s.started := rfl
@[simp] theorem State.setPc_loaded (s : State) (w : Word) : (s.setPc w).loaded = s.loaded := rfl
@[simp] theorem State.setPc_drawEdge (s : State) (w : Word) : (s.setPc w).drawEdge = s.drawEdge := rfl
@[simp] theorem State.setPc_fontset (s : State) (w : Word) : (s.setPc w).fontset = s.fontset := rfl
@[simp] theorem State.setPc_ops (s : State) (w : Word) : (s.setPc w).ops = s.ops := rfl
@[simp] theorem State.setPc_draws (s : State) (w : Word) : (s.setPc w).draws = s.draws := rfl
@[simp] theorem State.setPc_keys (s : State) (w : Word) : (s.setPc w).keys = s.keys := rfl
@[simp] theorem State.setPc_rnd (s : State) (w : Word) : (s.setPc w).rnd = s.rnd := rfl
@[simp] theorem State.setPc_result (s : State) (w : Word) : (s.setPc w).result = s.result := rfl
@[simp] theorem State.setPc_readByte (s : State) (w : Word) (n : Nat) : (s.setPc w).readByte n = s.readByte n := rfl
@[simp] theorem State.setPc_fetch (s : State) (w : Word) (n : Word) : (s.setPc w).fetch n = s.fetch n := rfl

/-! ### `setDelay` -/

@[simp] theorem State.setDelay_v (s : State) (b : Byte) : (s.setDelay b).v = s.v := rfl
@[simp] theorem State.setDelay_i (s : State) (b : Byte) : (s.setDelay b).i = s.i := rfl
@[simp] theorem State.setDelay_pc (s : State) (b : Byte) : (s.setDelay b).pc = s.pc := rfl
@[simp] theorem State.setDelay_mem (s : State) (b : Byte) : (s.setDelay b).mem = s.mem := rfl
@[simp] theorem State.setDelay_stack (s : State) (b : Byte) : (s.setDelay b).stack = s.stack := rfl
@[simp] theorem State.setDelay_sp (s : State) (b : Byte) : (s.setDelay b).sp = s.sp := rfl
@[simp] theorem State.setDelay_dt (s : State) (b : Byte) : (s.setDelay b).dt = b := rfl
@[simp] theorem State.setDelay_st (s : State) (b : Byte) : (s.setDelay b).st = s.st := rfl
@[simp] theorem State.setDelay_fb (s : State) (b : Byte) : (s.setDelay b).fb = s.fb := rfl
@[simp] theorem State.setDelay_dirty (s : State) (b : Byte) : (s.setDelay b).dirty = s.dirty := rfl
@[simp] theorem State.setDelay_toneOff (s : State) (b : Byte) : (s.setDelay b).toneOff = s.toneOff := rfl
@[simp] theorem State.setDelay_legacy (s : State) (b : Byte) : (s.setDelay b).legacy = s.legacy := rfl
@[simp] theorem State.setDelay_halt (s : State) (b : Byte) : (s.setDelay b).halt = s.halt := rfl
@[simp] theorem State.setDelay_err (s : State) (b : Byte) : (s.setDelay b).err = s.err := rfl
@[simp] theorem State.setDelay_errWord (s : State) (b : Byte) : (s.setDelay b).errWord = s.errWord := rfl
@[simp] theorem State.setDelay_errPc (s : State) (b : Byte) : (s.setDelay b).errPc = s.errPc := rfl
@[simp] theorem State.setDelay_started (s : State) (b : Byte) : (s.setDelay b).started = s.started := rfl
@[simp] theorem State.setDelay_loaded (s : State) (b : Byte) : (s.setDelay b).loaded = s.loaded := rfl
@[simp] theorem State.setDelay_drawEdge (s : State) (b : Byte) : (s.setDelay b).drawEdge = s.drawEdge := rfl
@[simp] theorem State.setDelay_fontset (s : State) (b : Byte) : (s.setDelay b).fontset = s.fontset := rfl
@[simp] theorem State.setDelay_ops (s : State) (b : Byte) : (s.setDelay b).ops = s.ops := rfl
@[simp] theorem State.setDelay_draws (s : State) (b : Byte) : (s.setDelay b).draws = s.draws := rfl
@[simp] theorem State.setDelay_keys (s : State) (b : Byte) : (s.setDelay b).keys = s.keys := rfl
@[simp] theorem State.setDelay_rnd (s : State) (b : Byte) : (s.setDelay b).rnd = s.rnd := rfl
@[simp] theorem State.setDelay_result (s : State) (b : Byte) : (s.setDelay b).result = s.result := rfl
@[simp] theorem State.setDelay_readByte (s : State) (b : Byte) (n : Nat) : (s.setDelay b).readByte n = s.readByte n := rfl
@[simp] theorem State.setDelay_fetch (s : State) (b : Byte) (n : Word) : (s.setDelay b).fetch n = s.fetch n := rfl

/-! ### `setSound` -/

@[simp] theorem State.setSound_v (s : State) (b : Byte) : (s.setSound b).v = s.v := rfl
@[simp] theorem State.setSound_i (s : State) (b : Byte) : (s.setSound b).i = s.i := rfl
@[simp] theorem State.setSound_pc (s : State) (b : Byte) : (s.setSound b).pc = s.pc := rfl
@[simp] theorem State.setSound_mem (s : State) (b : Byte) : (s.setSound b).mem = s.mem := rfl
@[simp] theorem State.setSound_stack (s : State) (b : Byte) : (s.setSound b).stack = s.stack := rfl
@[simp] theorem State.setSound_sp (s : State) (b : Byte) : (s.setSound b).sp = s.sp := rfl
@[simp] theorem State.setSound_dt (s : State) (b : Byte) : (s.setSound b).dt = s.dt := rfl
@[simp] theorem State.setSound_st (s : State) (b : Byte) : (s.setSound b).st = b := rfl
@[simp] theorem State.setSound_fb (s : State) (b : Byte) : (s.setSound b).fb = s.fb := rfl
@[simp] theorem State.setSound_dirty (s : State) (b : Byte) : (s.setSound b).dirty = s.dirty := rfl
@[simp] theorem State.setSound_toneOff (s : State) (b : Byte) : (s.setSound b).toneOff = s.toneOff := rfl
@[simp] theorem State.setSound_legacy (s : State) (b : Byte) : (s.setSound b).legacy = s.legacy := rfl
@[simp] theorem State.setSound_halt (s : State) (b : Byte) : (s.setSound b).halt = s.halt := rfl
@[simp] theorem State.setSound_err (s : State) (b : Byte) : (s.setSound b).err = s.err := rfl
@[simp] theorem State.setSound_errWord (s : State) (b : Byte) : (s.setSound b).errWord = s.errWord := rfl
@[simp] theorem State.setSound_errPc (s : State) (b : Byte) : (s.setSound b).errPc = s.errPc := rfl
@[simp] theorem State.setSound_started (s : State) (b : Byte) : (s.setSound b).started = s.started := rfl
@[simp] theorem State.setSound_loaded (s : State) (b : Byte) : (s.setSound b).loaded = s.loaded := rfl
@[simp] theorem State.setSound_drawEdge (s : State) (b : Byte) : (s.setSound b).drawEdge = s.drawEdge := rfl
@[simp] theorem State.setSound_fontset (s : State) (b : Byte) : (s.setSound b).fontset = s.fontset := rfl
@[simp] theorem State.setSound_ops (s : State) (b : Byte) : (s.setSound b).ops = s.ops := rfl
@[simp] theorem State.setSound_draws (s : State) (b : Byte) : (s.setSound b).draws = s.draws := rfl
@[simp] theorem State.setSound_keys (s : State) (b : Byte) : (s.setSound b).keys = s.keys := rfl
@[simp] theorem State.setSound_rnd (s : State) (b : Byte) : (s.setSound b).rnd = s.rnd := rfl
@[simp] theorem State.setSound_result (s : State) (b : Byte) : (s.setSound b).result = s.result := rfl
@[simp] theorem State.setSound_readByte (s : State) (b : Byte) (n : Nat) : (s.setSound b).readByte n = s.readByte n := rfl
@[simp] theorem State.setSound_fetch (s : State) (b : Byte) (n : Word) : (s.setSound b).fetch n = s.fetch n := rfl

/-! ### `setTone` -/

@[simp] theorem State.setTone_v (s : State) (b : Bool) : (s.setTone b).v = s.v := rfl
@[simp] theorem State.setTone_i (s : State) (b : Bool) : (s.setTone b).i = s.i := rfl
@[simp] theorem State.setTone_pc (s : State) (b : Bool) : (s.setTone b).pc = s.pc := rfl
@[simp] theorem State.setTone_mem (s : State) (b : Bool) : (s.setTone b).mem = s.mem := rfl
@[simp] theorem State.setTone_stack (s : State) (b : Bool) : (s.setTone b).stack = s.stack := rfl
@[simp] theorem State.setTone_sp (s : State) (b : Bool) : (s.setTone b).sp = s.sp := rfl
@[simp] theorem State.setTone_dt (s : State) (b : Bool) : (s.setTone b).dt = s.dt := rfl
@[simp] theorem State.setTone_st (s : State) (b : Bool) : (s.setTone b).st = s.st := rfl
@[simp] theorem State.setTone_fb (s : State) (b : Bool) : (s.setTone b).fb = s.fb := rfl
@[simp] theorem State.setTone_dirty (s : State) (b : Bool) : (s.setTone b).dirty = s.dirty := rfl
@[simp] theorem State.setTone_toneOff (s : State) (b : Bool) : (s.setTone b).toneOff = b := rfl
@[simp] theorem State.setTone_legacy (s : State) (b : Bool) : (s.setTone b).legacy = s.legacy := rfl
@[simp] theorem State.setTone_halt (s : State) (b : Bool) : (s.setTone b).halt = s.halt := rfl
@[simp] theorem State.setTone_err (s : State) (b : Bool) : (s.setTone b).err = s.err := rfl
@[simp] theorem State.setTone_errWord (s : State) (b : Bool) : (s.setTone b).errWord = s.errWord := rfl
@[simp] theorem State.setTone_errPc (s : State) (b : Bool) : (s.setTone b).errPc = s.errPc := rfl
@[simp] theorem State.setTone_started (s : State) (b : Bool) : (s.setTone b).started = s.started := rfl
@[simp] theorem State.setTone_loaded (s : State) (b : Bool) : (s.setTone b).loaded = s.loaded := rfl
@[simp] theorem State.setTone_drawEdge (s : State) (b : Bool) : (s.setTone b).drawEdge = s.drawEdge := rfl
@[simp] theorem State.setTone_fontset (s : State) (b : Bool) : (s.setTone b).fontset = s.fontset := rfl
@[simp] theorem State.setTone_ops (s : State) (b : Bool) : (s.setTone b).ops = s.ops := rfl
@[simp] theorem State.setTone_draws (s : State) (b : Bool) : (s.setTone b).draws = s.draws := rfl
@[simp] theorem State.setTone_keys (s : State) (b : Bool) : (s.setTone b).keys = s.keys := rfl
@[simp] theorem State.setTone_rnd (s : State) (b : Bool) : (s.setTone b).rnd = s.rnd := rfl
@[simp] theorem State.setTone_result (s : State) (b : Bool) : (s.setTone b).result = s.result := rfl
@[simp] theorem State.setTone_readByte (s : State) (b : Bool) (n : Nat) : (s.setTone b).readByte n = s.readByte n := rfl
@[simp] theorem State.setTone_fetch (s : State) (b : Bool) (n : Word) : (s.setTone b).fetch n = s.fetch n := rfl

/-! ### `setLoaded` -/

@[simp] theorem State.setLoaded_v (s : State) : s.setLoaded.v = s.v := rfl
@[simp] theorem State.setLoaded_i (s : State) : s.setLoaded.i = s.i := rfl
@[simp] theorem State.setLoaded_pc (s : State) : s.setLoaded.pc = s.pc := rfl
@[simp] theorem State.setLoaded_mem (s : State) : s.setLoaded.mem = s.mem := rfl
@[simp] theorem State.setLoaded_stack (s : State) : s.setLoaded.stack = s.stack := rfl
@[simp] theorem State.setLoaded_sp (s : State) : s.setLoaded.sp = s.sp := rfl
@[simp] theorem State.setLoaded_dt (s : State) : s.setLoaded.dt = s.dt := rfl
@[simp] theorem State.setLoaded_st (s : State) : s.setLoaded.st = s.st := rfl
@[simp] theorem State.setLoaded_fb (s : State) : s.setLoaded.fb = s.fb := rfl
@[simp] theorem State.setLoaded_dirty (s : State) : s.setLoaded.dirty = s.dirty := rfl
@[simp] theorem State.setLoaded_toneOff (s : State) : s.setLoaded.toneOff = s.toneOff := rfl
@[simp] theorem State.setLoaded_legacy (s : State) : s.setLoaded.legacy = s.legacy := rfl
@[simp] theorem State.setLoaded_halt (s : State) : s.setLoaded.halt = s.halt := rfl
@[simp] theorem State.setLoaded_err (s : State) : s.setLoaded.err = s.err := rfl
@[simp] theorem State.setLoaded_errWord (s : State) : s.setLoaded.errWord = s.errWord := rfl
@[simp] theorem State.setLoaded_errPc (s : State) : s.setLoaded.errPc = s.errPc := rfl
@[simp] theorem State.setLoaded_started (s : State) : s.setLoaded.started = s.started := rfl
@[simp] theorem State.setLoaded_loaded (s : State) : s.setLoaded.loaded = true := rfl
@[simp] theorem State.setLoaded_drawEdge (s : State) : s.setLoaded.drawEdge = s.drawEdge := rfl
@[simp] theorem State.setLoaded_fontset (s : State) : s.setLoaded.fontset = s.fontset := rfl
@[simp] theorem State.setLoaded_ops (s : State) : s.setLoaded.ops = s.ops := rfl
@[simp] theorem State.setLoaded_draws (s : State) : s.setLoaded.draws = s.draws := rfl
@[simp] theorem State.setLoaded_keys (s : State) : s.setLoaded.keys = s.keys := rfl
@[simp] theorem State.setLoaded_rnd (s : State) : s.setLoaded.rnd = s.rnd := rfl
@[simp] theorem State.setLoaded_result (s : State) : s.setLoaded.result = s.result := rfl
@[simp] theorem State.setLoaded_readByte (s : State) (n : Nat) : s.setLoaded.readByte n = s.readByte n := rfl
@[simp] theorem State.setLoaded_fetch (s : State) (n : Word) : s.setLoaded.fetch n = s.fetch n := rfl

/-! ### `clearDirty` -/

@[simp] theorem State.clearDirty_v (s : State) : s.clearDirty.v = s.v := rfl
@[simp] theorem State.clearDirty_i (s : State) : s.clearDirty.i = s.i := rfl
@[simp] theorem State.clearDirty_pc (s : State) : s.clearDirty.pc = s.pc := rfl
@[simp] theorem State.clearDirty_mem (s : State) : s.clearDirty.mem = s.mem := rfl
@[simp] theorem State.clearDirty_stack (s : State) : s.clearDirty.stack = s.stack := rfl
@[simp] theorem State.clearDirty_sp (s : State) : s.clearDirty.sp = s.sp := rfl
@[simp] theorem State.clearDirty_dt (s : State) : s.clearDirty.dt = s.dt := rfl
@[simp] theorem State.clearDirty_st (s : State) : s.clearDirty.st = s.st := rfl
@[simp] theorem State.clearDirty_fb (s : State) : s.clearDirty.fb = s.fb := rfl
@[simp] theorem State.clearDirty_dirty (s : State) : s.clearDirty.dirty = false := rfl
@[simp] theorem State.clearDirty_toneOff (s : State) : s.clearDirty.toneOff = s.toneOff := rfl
@[simp] theorem State.clearDirty_legacy (s : State) : s.clearDirty.legacy = s.legacy := rfl
@[simp] theorem State.clearDirty_halt (s : State) : s.clearDirty.halt = s.halt := rfl
@[simp] theorem State.clearDirty_err (s : State) : s.clearDirty.err = s.err := rfl
@[simp] theorem State.clearDirty_errWord (s : State) : s.clearDirty.errWord = s.errWord := rfl
@[simp] theorem State.clearDirty_errPc (s : State) : s.clearDirty.errPc = s.errPc := rfl
@[simp] theorem State.clearDirty_started (s : State) : s.clearDirty.started = s.started := rfl
@[simp] theorem State.clearDirty_loaded (s : State) : s.clearDirty.loaded = s.loaded := rfl
@[simp] theorem State.clearDirty_drawEdge (s : State) : s.clearDirty.drawEdge = s.drawEdge := rfl
@[simp] theorem State.clearDirty_fontset (s : State) : s.clearDirty.fontset = s.fontset := rfl
@[simp] theorem State.clearDirty_ops (s : State) : s.clearDirty.ops = s.ops := rfl
@[simp] theorem State.clearDirty_draws (s : State) : s.clearDirty.draws = s.draws := rfl
@[simp] theorem State.clearDirty_keys (s : State) : s.clearDirty.keys = s.keys := rfl
@[simp] theorem State.clearDirty_rnd (s : State) : s.clearDirty.rnd = s.rnd := rfl
@[simp] theorem State.clearDirty_result (s : State) : s.clearDirty.result = s.result := rfl
@[simp] theorem State.clearDirty_readByte (s : State) (n : Nat) : s.clearDirty.readByte n = s.readByte n := rfl
@[simp] theorem State.clearDirty_fetch (s : State) (n : Word) : s.clearDirty.fetch n = s.fetch n := rfl

/-! ### `setStack` -/

@[simp] theorem State.setStack_v (s : State) (st : Vector Word 16) (d : Fin 17) : (s.setStack st d).v = s.v := rfl
@[simp] theorem State.setStack_i (s : State) (st : Vector Word 16) (d : Fin 17) : (s.setStack st d).i = s.i := rfl
@[simp] theorem State.setStack_pc (s : State) (st : Vector Word 16) (d : Fin 17) : (s.setStack st d).pc = s.pc := rfl
@[simp] theorem State.setStack_mem (s : State) (st : Vector Word 16) (d : Fin 17) : (s.setStack st d).mem = s.mem := rfl
@[simp] theorem State.setStack_stack (s : State) (st : Vector Word 16) (d : Fin 17) : (s.setStack st d).stack = st := rfl
@[simp] theorem State.setStack_sp (s : State) (st : Vector Word 16) (d : Fin 17) : (s.setStack st d).sp = d := rfl
@[simp] theorem State.setStack_dt (s : State) (st : Vector Word 16) (d : Fin 17) : (s.setStack st d).dt = s.dt := rfl
@[simp] theorem State.setStack_st (s : State) (st : Vector Word 16) (d : Fin 17) : (s.setStack st d).st = s.st := rfl
@[simp] theorem State.setStack_fb (s : State) (st : Vector Word 16) (d : Fin 17) : (s.setStack st d).fb = s.fb := rfl
@[simp] theorem State.setStack_dirty (s : State) (st : Vector Word 16) (d : Fin 17) : (s.setStack st d).dirty = s.dirty := rfl
@[simp] theorem State.setStack_toneOff (s : State) (st : Vector Word 16) (d : Fin 17) : (s.setStack st d).toneOff = s.toneOff := rfl
@[simp] theorem State.setStack_legacy (s : State) (st : Vector Word 16) (d : Fin 17) : (s.setStack st d).legacy = s.legacy := rfl
@[simp] theorem State.setStack_halt (s : State) (st : Vector Word 16) (d : Fin 17) : (s.setStack st d).halt = s.halt := rfl
@[simp] theorem State.setStack_err (s : State) (st : Vector Word 16) (d : Fin 17) : (s.setStack st d).err = s.err := rfl
@[simp] theorem State.setStack_errWord (s : State) (st : Vector Word 16) (d : Fin 17) : (s.setStack st d).errWord = s.errWord := rfl
@[simp] theorem State.setStack_errPc (s : State) (st : Vector Word 16) (d : Fin 17) : (s.setStack st d).errPc = s.errPc := rfl
@[simp] theorem State.setStack_started (s : State) (st : Vector Word 16) (d : Fin 17) : (s.setStack st d).started = s.started := rfl
@[simp] theorem State.setStack_loaded (s : State) (st : Vector Word 16) (d : Fin 17) : (s.setStack st d).loaded = s.loaded := rfl
@[simp] theorem State.setStack_drawEdge (s : State) (st : Vector Word 16) (d : Fin 17) : (s.setStack st d).drawEdge = s.drawEdge := rfl
@[simp] theorem State.setStack_fontset (s : State) (st : Vector Word 16) (d : Fin 17) : (s.setStack st d).fontset = s.fontset := rfl
@[simp] theorem State.setStack_ops (s : State) (st : Vector Word 16) (d : Fin 17) : (s.setStack st d).ops = s.ops := rfl
@[simp] theorem State.setStack_draws (s : State) (st : Vector Word 16) (d : Fin 17) : (s.setStack st d).draws = s.draws := rfl
@[simp] theorem State.setStack_keys (s : State) (st : Vector Word 16) (d : Fin 17) : (s.setStack st d).keys = s.keys := rfl
@[simp] theorem State.setStack_rnd (s : State) (st : Vector Word 16) (d : Fin 17) : (s.setStack st d).rnd = s.rnd := rfl
@[simp] theorem State.setStack_result (s : State) (st : Vector Word 16) (d : Fin 17) : (s.setStack st d).result = s.result := rfl
@[simp] theorem State.setStack_readByte (s : State) (st : Vector Word 16) (d : Fin 17) (n : Nat) : (s.setStack st d).readByte n = s.readByte n := rfl
@[simp] theorem State.setStack_fetch (s : State) (st : Vector Word 16) (d : Fin 17) (n : Word) : (s.setStack st d).fetch n = s.fetch n := rfl

/-! ### `setDisplay` -/

@[simp] theorem State.setDisplay_v (s : State) (f : Framebuffer) : (s.setDisplay f).v = s.v := rfl
@[simp] theorem State.setDisplay_i (s : State) (f : Framebuffer) : (s.setDisplay f).i = s.i := rfl
@[simp] theorem State.setDisplay_pc (s : State) (f : Framebuffer) : (s.setDisplay f).pc = s.pc := rfl
@[simp] theorem State.setDisplay_mem (s : State) (f : Framebuffer) : (s.setDisplay f).mem = s.mem := rfl
@[simp] theorem State.setDisplay_stack (s : State) (f : Framebuffer) : (s.setDisplay f).stack = s.stack := rfl
@[simp] theorem State.setDisplay_sp (s : State) (f : Framebuffer) : (s.setDisplay f).sp = s.sp := rfl
@[simp] theorem State.setDisplay_dt (s : State) (f : Framebuffer) : (s.setDisplay f).dt = s.dt := rfl
@[simp] theorem State.setDisplay_st (s : State) (f : Framebuffer) : (s.setDisplay f).st = s.st := rfl
@[simp] theorem State.setDisplay_fb (s : State) (f : Framebuffer) : (s.setDisplay f).fb = f := rfl
@[simp] theorem State.setDisplay_dirty (s : State) (f : Framebuffer) : (s.setDisplay f).dirty = true := rfl
@[simp] theorem State.setDisplay_toneOff (s : State) (f : Framebuffer) : (s.setDisplay f).toneOff = s.toneOff := rfl
@[simp] theorem State.setDisplay_legacy (s : State) (f : Framebuffer) : (s.setDisplay f).legacy = s.legacy := rfl
@[simp] theorem State.setDisplay_halt (s : State) (f : Framebuffer) : (s.setDisplay f).halt = s.halt := rfl
@[simp] theorem State.setDisplay_err (s : State) (f : Framebuffer) : (s.setDisplay f).err = s.err := rfl
@[simp] theorem State.setDisplay_errWord (s : State) (f : Framebuffer) : (s.setDisplay f).errWord = s.errWord := rfl
@[simp] theorem State.setDisplay_errPc (s : State) (f : Framebuffer) : (s.setDisplay f).errPc = s.errPc := rfl
@[simp] theorem State.setDisplay_started (s : State) (f : Framebuffer) : (s.setDisplay f).started = s.started := rfl
@[simp] theorem State.setDisplay_loaded (s : State) (f : Framebuffer) : (s.setDisplay f).loaded = s.loaded := rfl
@[simp] theorem State.setDisplay_drawEdge (s : State) (f : Framebuffer) : (s.setDisplay f).drawEdge = s.drawEdge := rfl
@[simp] theorem State.setDisplay_fontset (s : State) (f : Framebuffer) : (s.setDisplay f).fontset = s.fontset := rfl
@[simp] theorem State.setDisplay_ops (s : State) (f : Framebuffer) : (s.setDisplay f).ops = s.ops := rfl
@[simp] theorem State.setDisplay_draws (s : State) (f : Framebuffer) : (s.setDisplay f).draws = s.draws := rfl
@[simp] theorem State.setDisplay_keys (s : State) (f : Framebuffer) : (s.setDisplay f).keys = s.keys := rfl
@[simp] theorem State.setDisplay_rnd (s : State) (f : Framebuffer) : (s.setDisplay f).rnd = s.rnd := rfl
@[simp] theorem State.setDisplay_result (s : State) (f : Framebuffer) : (s.setDisplay f).result = s.result := rfl
@[simp] theorem State.setDisplay_readByte (s : State) (f : Framebuffer) (n : Nat) : (s.setDisplay f).readByte n = s.readByte n := rfl
@[simp] theorem State.setDisplay_fetch (s : State) (f : Framebuffer) (n : Word) : (s.setDisplay f).fetch n = s.fetch n := rfl

/-! ### `finish` -/

@[simp] theorem State.finish_v (s : State) (r : OpResult) : (s.finish r).v = s.v := rfl
@[simp] theorem State.finish_i (s : State) (r : OpResult) : (s.finish r).i = s.i := rfl
@[simp] theorem State.finish_pc (s : State) (r : OpResult) : (s.finish r).pc = s.pc := rfl
@[simp] theorem State.finish_mem (s : State) (r : OpResult) : (s.finish r).mem = s.mem := rfl
@[simp] theorem State.finish_stack (s : State) (r : OpResult) : (s.finish r).stack = s.stack := rfl
@[simp] theorem State.finish_sp (s : State) (r : OpResult) : (s.finish r).sp = s.sp := rfl
@[simp] theorem State.finish_dt (s : State) (r : OpResult) : (s.finish r).dt = s.dt := rfl
@[simp] theorem State.finish_st (s : State) (r : OpResult) : (s.finish r).st = s.st := rfl
@[simp] theorem State.finish_fb (s : State) (r : OpResult) : (s.finish r).fb = s.fb := rfl
@[simp] theorem State.finish_dirty (s : State) (r : OpResult) : (s.finish r).dirty = s.dirty := rfl
@[simp] theorem State.finish_toneOff (s : State) (r : OpResult) : (s.finish r).toneOff = s.toneOff := rfl
@[simp] theorem State.finish_legacy (s : State) (r : OpResult) : (s.finish r).legacy = s.legacy := rfl
@[simp] theorem State.finish_halt (s : State) (r : OpResult) : (s.finish r).halt = s.halt := rfl
@[simp] theorem State.finish_err (s : State) (r : OpResult) : (s.finish r).err = s.err := rfl
@[simp] theorem State.finish_errWord (s : State) (r : OpResult) : (s.finish r).errWord = s.errWord := rfl
@[simp] theorem State.finish_errPc (s : State) (r : OpResult) : (s.finish r).errPc = s.errPc := rfl
@[simp] theorem State.finish_started (s : State) (r : OpResult) : (s.finish r).started = s.started := rfl
@[simp] theorem State.finish_loaded (s : State) (r : OpResult) : (s.finish r).loaded = s.loaded := rfl
@[simp] theorem State.finish_drawEdge (s : State) (r : OpResult) : (s.finish r).drawEdge = s.drawEdge := rfl
@[simp] theorem State.finish_fontset (s : State) (r : OpResult) : (s.finish r).fontset = s.fontset := rfl
@[simp] theorem State.finish_ops (s : State) (r : OpResult) : (s.finish r).ops = s.ops := rfl
@[simp] theorem State.finish_draws (s : State) (r : OpResult) : (s.finish r).draws = s.draws := rfl
@[simp] theorem State.finish_keys (s : State) (r : OpResult) : (s.finish r).keys = s.keys := rfl
@[simp] theorem State.finish_rnd (s : State) (r : OpResult) : (s.finish r).rnd = s.rnd := rfl
@[simp] theorem State.finish_result (s : State) (r : OpResult) : (s.finish r).result = r := rfl
@[simp] theorem State.finish_readByte (s : State) (r : OpResult) (n : Nat) : (s.finish r).readByte n = s.readByte n := rfl
@[simp] theorem State.finish_fetch (s : State) (r : OpResult) (n : Word) : (s.finish r).fetch n = s.fetch n := rfl

/-! ### `raise` -/

@[simp] theorem State.raise_v (s : State) (e : ErrorKind) (w a : Word) : (s.raise e w a).v = s.v := rfl
@[simp] theorem State.raise_i (s : State) (e : ErrorKind) (w a : Word) : (s.raise e w a).i = s.i := rfl
@[simp] theorem State.raise_pc (s : State) (e : ErrorKind) (w a : Word) : (s.raise e w a).pc = s.pc := rfl
@[simp] theorem State.raise_mem (s : State) (e : ErrorKind) (w a : Word) : (s.raise e w a).mem = s.mem := rfl
@[simp] theorem State.raise_stack (s : State) (e : ErrorKind) (w a : Word) : (s.raise e w a).stack = s.stack := rfl
@[simp] theorem State.raise_sp (s : State) (e : ErrorKind) (w a : Word) : (s.raise e w a).sp = s.sp := rfl
@[simp] theorem State.raise_dt (s : State) (e : ErrorKind) (w a : Word) : (s.raise e w a).dt = s.dt := rfl
@[simp] theorem State.raise_st (s : State) (e : ErrorKind) (w a : Word) : (s.raise e w a).st = s.st := rfl
@[simp] theorem State.raise_fb (s : State) (e : ErrorKind) (w a : Word) : (s.raise e w a).fb = s.fb := rfl
@[simp] theorem State.raise_dirty (s : State) (e : ErrorKind) (w a : Word) : (s.raise e w a).dirty = s.dirty := rfl
@[simp] theorem State.raise_toneOff (s : State) (e : ErrorKind) (w a : Word) : (s.raise e w a).toneOff = s.toneOff := rfl
@[simp] theorem State.raise_legacy (s : State) (e : ErrorKind) (w a : Word) : (s.raise e w a).legacy = s.legacy := rfl
@[simp] theorem State.raise_halt (s : State) (e : ErrorKind) (w a : Word) : (s.raise e w a).halt = true := rfl
@[simp] theorem State.raise_err (s : State) (e : ErrorKind) (w a : Word) : (s.raise e w a).err = e.code := rfl
@[simp] theorem State.raise_errWord (s : State) (e : ErrorKind) (w a : Word) : (s.raise e w a).errWord = w := rfl
@[simp] theorem State.raise_errPc (s : State) (e : ErrorKind) (w a : Word) : (s.raise e w a).errPc = a := rfl
@[simp] theorem State.raise_started (s : State) (e : ErrorKind) (w a : Word) : (s.raise e w a).started = s.started := rfl
@[simp] theorem State.raise_loaded (s : State) (e : ErrorKind) (w a : Word) : (s.raise e w a).loaded = s.loaded := rfl
@[simp] theorem State.raise_drawEdge (s : State) (e : ErrorKind) (w a : Word) : (s.raise e w a).drawEdge = s.drawEdge := rfl
@[simp] theorem State.raise_fontset (s : State) (e : ErrorKind) (w a : Word) : (s.raise e w a).fontset = s.fontset := rfl
@[simp] theorem State.raise_ops (s : State) (e : ErrorKind) (w a : Word) : (s.raise e w a).ops = s.ops := rfl
@[simp] theorem State.raise_draws (s : State) (e : ErrorKind) (w a : Word) : (s.raise e w a).draws = s.draws := rfl
@[simp] theorem State.raise_keys (s : State) (e : ErrorKind) (w a : Word) : (s.raise e w a).keys = s.keys := rfl
@[simp] theorem State.raise_rnd (s : State) (e : ErrorKind) (w a : Word) : (s.raise e w a).rnd = s.rnd := rfl
@[simp] theorem State.raise_result (s : State) (e : ErrorKind) (w a : Word) : (s.raise e w a).result = .halted e.code := rfl
@[simp] theorem State.raise_readByte (s : State) (e : ErrorKind) (w a : Word) (n : Nat) : (s.raise e w a).readByte n = s.readByte n := rfl
@[simp] theorem State.raise_fetch (s : State) (e : ErrorKind) (w a : Word) (n : Word) : (s.raise e w a).fetch n = s.fetch n := rfl

/-! ### `beginStep` -/

@[simp] theorem State.beginStep_v (s : State) (k : Word) (r : Byte) : (s.beginStep k r).v = s.v := rfl
@[simp] theorem State.beginStep_i (s : State) (k : Word) (r : Byte) : (s.beginStep k r).i = s.i := rfl
@[simp] theorem State.beginStep_pc (s : State) (k : Word) (r : Byte) : (s.beginStep k r).pc = s.pc := rfl
@[simp] theorem State.beginStep_mem (s : State) (k : Word) (r : Byte) : (s.beginStep k r).mem = s.mem := rfl
@[simp] theorem State.beginStep_stack (s : State) (k : Word) (r : Byte) : (s.beginStep k r).stack = s.stack := rfl
@[simp] theorem State.beginStep_sp (s : State) (k : Word) (r : Byte) : (s.beginStep k r).sp = s.sp := rfl
@[simp] theorem State.beginStep_dt (s : State) (k : Word) (r : Byte) : (s.beginStep k r).dt = s.dt := rfl
@[simp] theorem State.beginStep_st (s : State) (k : Word) (r : Byte) : (s.beginStep k r).st = s.st := rfl
@[simp] theorem State.beginStep_fb (s : State) (k : Word) (r : Byte) : (s.beginStep k r).fb = s.fb := rfl
@[simp] theorem State.beginStep_dirty (s : State) (k : Word) (r : Byte) : (s.beginStep k r).dirty = s.dirty := rfl
@[simp] theorem State.beginStep_toneOff (s : State) (k : Word) (r : Byte) : (s.beginStep k r).toneOff = s.toneOff := rfl
@[simp] theorem State.beginStep_legacy (s : State) (k : Word) (r : Byte) : (s.beginStep k r).legacy = s.legacy := rfl
@[simp] theorem State.beginStep_halt (s : State) (k : Word) (r : Byte) : (s.beginStep k r).halt = s.halt := rfl
@[simp] theorem State.beginStep_err (s : State) (k : Word) (r : Byte) : (s.beginStep k r).err = s.err := rfl
@[simp] theorem State.beginStep_errWord (s : State) (k : Word) (r : Byte) : (s.beginStep k r).errWord = s.errWord := rfl
@[simp] theorem State.beginStep_errPc (s : State) (k : Word) (r : Byte) : (s.beginStep k r).errPc = s.errPc := rfl
@[simp] theorem State.beginStep_started (s : State) (k : Word) (r : Byte) : (s.beginStep k r).started = true := rfl
@[simp] theorem State.beginStep_loaded (s : State) (k : Word) (r : Byte) : (s.beginStep k r).loaded = s.loaded := rfl
@[simp] theorem State.beginStep_drawEdge (s : State) (k : Word) (r : Byte) : (s.beginStep k r).drawEdge = s.drawEdge := rfl
@[simp] theorem State.beginStep_fontset (s : State) (k : Word) (r : Byte) : (s.beginStep k r).fontset = s.fontset := rfl
@[simp] theorem State.beginStep_ops (s : State) (k : Word) (r : Byte) : (s.beginStep k r).ops = s.ops := rfl
@[simp] theorem State.beginStep_draws (s : State) (k : Word) (r : Byte) : (s.beginStep k r).draws = s.draws := rfl
@[simp] theorem State.beginStep_keys (s : State) (k : Word) (r : Byte) : (s.beginStep k r).keys = k := rfl
@[simp] theorem State.beginStep_rnd (s : State) (k : Word) (r : Byte) : (s.beginStep k r).rnd = r := rfl
@[simp] theorem State.beginStep_result (s : State) (k : Word) (r : Byte) : (s.beginStep k r).result = s.result := rfl
@[simp] theorem State.beginStep_readByte (s : State) (k : Word) (r : Byte) (n : Nat) : (s.beginStep k r).readByte n = s.readByte n := rfl
@[simp] theorem State.beginStep_fetch (s : State) (k : Word) (r : Byte) (n : Word) : (s.beginStep k r).fetch n = s.fetch n := rfl

/-! ### `takeOp` -/

@[simp] theorem State.takeOp_v (s : State) : s.takeOp.v = s.v := rfl
@[simp] theorem State.takeOp_i (s : State) : s.takeOp.i = s.i := rfl
@[simp] theorem State.takeOp_pc (s : State) : s.takeOp.pc = s.pc := rfl
@[simp] theorem State.takeOp_mem (s : State) : s.takeOp.mem = s.mem := rfl
@[simp] theorem State.takeOp_stack (s : State) : s.takeOp.stack = s.stack := rfl
@[simp] theorem State.takeOp_sp (s : State) : s.takeOp.sp = s.sp := rfl
@[simp] theorem State.takeOp_dt (s : State) : s.takeOp.dt = s.dt := rfl
@[simp] theorem State.takeOp_st (s : State) : s.takeOp.st = s.st := rfl
@[simp] theorem State.takeOp_fb (s : State) : s.takeOp.fb = s.fb := rfl
@[simp] theorem State.takeOp_dirty (s : State) : s.takeOp.dirty = s.dirty := rfl
@[simp] theorem State.takeOp_toneOff (s : State) : s.takeOp.toneOff = s.toneOff := rfl
@[simp] theorem State.takeOp_legacy (s : State) : s.takeOp.legacy = s.legacy := rfl
@[simp] theorem State.takeOp_halt (s : State) : s.takeOp.halt = s.halt := rfl
@[simp] theorem State.takeOp_err (s : State) : s.takeOp.err = s.err := rfl
@[simp] theorem State.takeOp_errWord (s : State) : s.takeOp.errWord = s.errWord := rfl
@[simp] theorem State.takeOp_errPc (s : State) : s.takeOp.errPc = s.errPc := rfl
@[simp] theorem State.takeOp_started (s : State) : s.takeOp.started = s.started := rfl
@[simp] theorem State.takeOp_loaded (s : State) : s.takeOp.loaded = s.loaded := rfl
@[simp] theorem State.takeOp_drawEdge (s : State) : s.takeOp.drawEdge = s.drawEdge := rfl
@[simp] theorem State.takeOp_fontset (s : State) : s.takeOp.fontset = s.fontset := rfl
@[simp] theorem State.takeOp_ops (s : State) : s.takeOp.ops = s.ops.tail := rfl
@[simp] theorem State.takeOp_draws (s : State) : s.takeOp.draws = if s.ops.isEmpty then s.draws + 1 else s.draws := rfl
@[simp] theorem State.takeOp_keys (s : State) : s.takeOp.keys = s.keys := rfl
@[simp] theorem State.takeOp_rnd (s : State) : s.takeOp.rnd = s.rnd := rfl
@[simp] theorem State.takeOp_result (s : State) : s.takeOp.result = s.result := rfl
@[simp] theorem State.takeOp_readByte (s : State) (n : Nat) : s.takeOp.readByte n = s.readByte n := rfl
@[simp] theorem State.takeOp_fetch (s : State) (n : Word) : s.takeOp.fetch n = s.fetch n := rfl

/-! ### `writeByte` -/

@[simp] theorem State.writeByte_v (s : State) (a : Nat) (b : Byte) : (s.writeByte a b).v = s.v := rfl
@[simp] theorem State.writeByte_i (s : State) (a : Nat) (b : Byte) : (s.writeByte a b).i = s.i := rfl
@[simp] theorem State.writeByte_pc (s : State) (a : Nat) (b : Byte) : (s.writeByte a b).pc = s.pc := rfl
@[simp] theorem State.writeByte_mem (s : State) (a : Nat) (b : Byte) : (s.writeByte a b).mem = Memory.write s.fontset (maskAddr a) b s.mem := rfl
@[simp] theorem State.writeByte_stack (s : State) (a : Nat) (b : Byte) : (s.writeByte a b).stack = s.stack := rfl
@[simp] theorem State.writeByte_sp (s : State) (a : Nat) (b : Byte) : (s.writeByte a b).sp = s.sp := rfl
@[simp] theorem State.writeByte_dt (s : State) (a : Nat) (b : Byte) : (s.writeByte a b).dt = s.dt := rfl
@[simp] theorem State.writeByte_st (s : State) (a : Nat) (b : Byte) : (s.writeByte a b).st = s.st := rfl
@[simp] theorem State.writeByte_fb (s : State) (a : Nat) (b : Byte) : (s.writeByte a b).fb = s.fb := rfl
@[simp] theorem State.writeByte_dirty (s : State) (a : Nat) (b : Byte) : (s.writeByte a b).dirty = s.dirty := rfl
@[simp] theorem State.writeByte_toneOff (s : State) (a : Nat) (b : Byte) : (s.writeByte a b).toneOff = s.toneOff := rfl
@[simp] theorem State.writeByte_legacy (s : State) (a : Nat) (b : Byte) : (s.writeByte a b).legacy = s.legacy := rfl
@[simp] theorem State.writeByte_halt (s : State) (a : Nat) (b : Byte) : (s.writeByte a b).halt = s.halt := rfl
@[simp] theorem State.writeByte_err (s : State) (a : Nat) (b : Byte) : (s.writeByte a b).err = s.err := rfl
@[simp] theorem State.writeByte_errWord (s : State) (a : Nat) (b : Byte) : (s.writeByte a b).errWord = s.errWord := rfl
@[simp] theorem State.writeByte_errPc (s : State) (a : Nat) (b : Byte) : (s.writeByte a b).errPc = s.errPc := rfl
@[simp] theorem State.writeByte_started (s : State) (a : Nat) (b : Byte) : (s.writeByte a b).started = s.started := rfl
@[simp] theorem State.writeByte_loaded (s : State) (a : Nat) (b : Byte) : (s.writeByte a b).loaded = s.loaded := rfl
@[simp] theorem State.writeByte_drawEdge (s : State) (a : Nat) (b : Byte) : (s.writeByte a b).drawEdge = s.drawEdge := rfl
@[simp] theorem State.writeByte_fontset (s : State) (a : Nat) (b : Byte) : (s.writeByte a b).fontset = s.fontset := rfl
@[simp] theorem State.writeByte_ops (s : State) (a : Nat) (b : Byte) : (s.writeByte a b).ops = s.ops := rfl
@[simp] theorem State.writeByte_draws (s : State) (a : Nat) (b : Byte) : (s.writeByte a b).draws = s.draws := rfl
@[simp] theorem State.writeByte_keys (s : State) (a : Nat) (b : Byte) : (s.writeByte a b).keys = s.keys := rfl
@[simp] theorem State.writeByte_rnd (s : State) (a : Nat) (b : Byte) : (s.writeByte a b).rnd = s.rnd := rfl
@[simp] theorem State.writeByte_result (s : State) (a : Nat) (b : Byte) : (s.writeByte a b).result = s.result := rfl

/-! ### `loadRange` -/

@[simp] theorem State.loadRange_v (s : State) (x : Reg) : (s.loadRange x).v = Vector.ofFn fun k : Fin 16 => if k ≤ x then s.readByte (s.effAddr k) else s.v[k] := rfl
@[simp] theorem State.loadRange_i (s : State) (x : Reg) : (s.loadRange x).i = s.i := rfl
@[simp] theorem State.loadRange_pc (s : State) (x : Reg) : (s.loadRange x).pc = s.pc := rfl
@[simp] theorem State.loadRange_mem (s : State) (x : Reg) : (s.loadRange x).mem = s.mem := rfl
@[simp] theorem State.loadRange_stack (s : State) (x : Reg) : (s.loadRange x).stack = s.stack := rfl
@[simp] theorem State.loadRange_sp (s : State) (x : Reg) : (s.loadRange x).sp = s.sp := rfl
@[simp] theorem State.loadRange_dt (s : State) (x : Reg) : (s.loadRange x).dt = s.dt := rfl
@[simp] theorem State.loadRange_st (s : State) (x : Reg) : (s.loadRange x).st = s.st := rfl
@[simp] theorem State.loadRange_fb (s : State) (x : Reg) : (s.loadRange x).fb = s.fb := rfl
@[simp] theorem State.loadRange_dirty (s : State) (x : Reg) : (s.loadRange x).dirty = s.dirty := rfl
@[simp] theorem State.loadRange_toneOff (s : State) (x : Reg) : (s.loadRange x).toneOff = s.toneOff := rfl
@[simp] theorem State.loadRange_legacy (s : State) (x : Reg) : (s.loadRange x).legacy = s.legacy := rfl
@[simp] theorem State.loadRange_halt (s : State) (x : Reg) : (s.loadRange x).halt = s.halt := rfl
@[simp] theorem State.loadRange_err (s : State) (x : Reg) : (s.loadRange x).err = s.err := rfl
@[simp] theorem State.loadRange_errWord (s : State) (x : Reg) : (s.loadRange x).errWord = s.errWord := rfl
@[simp] theorem State.loadRange_errPc (s : State) (x : Reg) : (s.loadRange x).errPc = s.errPc := rfl
@[simp] theorem State.loadRange_started (s : State) (x : Reg) : (s.loadRange x).started = s.started := rfl
@[simp] theorem State.loadRange_loaded (s : State) (x : Reg) : (s.loadRange x).loaded = s.loaded := rfl
@[simp] theorem State.loadRange_drawEdge (s : State) (x : Reg) : (s.loadRange x).drawEdge = s.drawEdge := rfl
@[simp] theorem State.loadRange_fontset (s : State) (x : Reg) : (s.loadRange x).fontset = s.fontset := rfl
@[simp] theorem State.loadRange_ops (s : State) (x : Reg) : (s.loadRange x).ops = s.ops := rfl
@[simp] theorem State.loadRange_draws (s : State) (x : Reg) : (s.loadRange x).draws = s.draws := rfl
@[simp] theorem State.loadRange_keys (s : State) (x : Reg) : (s.loadRange x).keys = s.keys := rfl
@[simp] theorem State.loadRange_rnd (s : State) (x : Reg) : (s.loadRange x).rnd = s.rnd := rfl
@[simp] theorem State.loadRange_result (s : State) (x : Reg) : (s.loadRange x).result = s.result := rfl
@[simp] theorem State.loadRange_readByte (s : State) (x : Reg) (n : Nat) : (s.loadRange x).readByte n = s.readByte n := rfl
@[simp] theorem State.loadRange_fetch (s : State) (x : Reg) (n : Word) : (s.loadRange x).fetch n = s.fetch n := rfl

/-! ### `writeBytes` -/

/-- A run of byte writes changes memory and nothing else. -/
theorem State.writeBytes_eq (bs : List Byte) :
    ∀ (s : State) (a : Nat), s.writeBytes a bs = { s with mem := (s.writeBytes a bs).mem } := by
  induction bs with
  | nil => intro s a; rfl
  | cons b bs ih => intro s a; rw [State.writeBytes, ih (s.writeByte a b) (a + 1)]; rfl

@[simp] theorem State.writeBytes_v (s : State) (a : Nat) (bs : List Byte) : (s.writeBytes a bs).v = s.v := by
  rw [State.writeBytes_eq]
@[simp] theorem State.writeBytes_i (s : State) (a : Nat) (bs : List Byte) : (s.writeBytes a bs).i = s.i := by
  rw [State.writeBytes_eq]
@[simp] theorem State.writeBytes_pc (s : State) (a : Nat) (bs : List Byte) : (s.writeBytes a bs).pc = s.pc := by
  rw [State.writeBytes_eq]
@[simp] theorem State.writeBytes_stack (s : State) (a : Nat) (bs : List Byte) : (s.writeBytes a bs).stack = s.stack := by
  rw [State.writeBytes_eq]
@[simp] theorem State.writeBytes_sp (s : State) (a : Nat) (bs : List Byte) : (s.writeBytes a bs).sp = s.sp := by
  rw [State.writeBytes_eq]
@[simp] theorem State.writeBytes_dt (s : State) (a : Nat) (bs : List Byte) : (s.writeBytes a bs).dt = s.dt := by
  rw [State.writeBytes_eq]
@[simp] theorem State.writeBytes_st (s : State) (a : Nat) (bs : List Byte) : (s.writeBytes a bs).st = s.st := by
  rw [State.writeBytes_eq]
@[simp] theorem State.writeBytes_fb (s : State) (a : Nat) (bs : List Byte) : (s.writeBytes a bs).fb = s.fb := by
  rw [State.writeBytes_eq]
@[simp] theorem State.writeBytes_dirty (s : State) (a : Nat) (bs : List Byte) : (s.writeBytes a bs).dirty = s.dirty := by
  rw [State.writeBytes_eq]
@[simp] theorem State.writeBytes_toneOff (s : State) (a : Nat) (bs : List Byte) : (s.writeBytes a bs).toneOff = s.toneOff := by
  rw [State.writeBytes_eq]
@[simp] theorem State.writeBytes_legacy (s : State) (a : Nat) (bs : List Byte) : (s.writeBytes a bs).legacy = s.legacy := by
  rw [State.writeBytes_eq]
@[simp] theorem State.writeBytes_halt (s : State) (a : Nat) (bs : List Byte) : (s.writeBytes a bs).halt = s.halt := by
  rw [State.writeBytes_eq]
@[simp] theorem State.writeBytes_err (s : State) (a : Nat) (bs : List Byte) : (s.writeBytes a bs).err = s.err := by
  rw [State.writeBytes_eq]
@[simp] theorem State.writeBytes_errWord (s : State) (a : Nat) (bs : List Byte) : (s.writeBytes a bs).errWord = s.errWord := by
  rw [State.writeBytes_eq]
@[simp] theorem State.writeBytes_errPc (s : State) (a : Nat) (bs : List Byte) : (s.writeBytes a bs).errPc = s.errPc := by
  rw [State.writeBytes_eq]
@[simp] theorem State.writeBytes_started (s : State) (a : Nat) (bs : List Byte) : (s.writeBytes a bs).started = s.started := by
  rw [State.writeBytes_eq]
@[simp] theorem State.writeBytes_loaded (s : State) (a : Nat) (bs : List Byte) : (s.writeBytes a bs).loaded = s.loaded := by
  rw [State.writeBytes_eq]
@[simp] theorem State.writeBytes_drawEdge (s : State) (a : Nat) (bs : List Byte) : (s.writeBytes a bs).drawEdge = s.drawEdge := by
  rw [State.writeBytes_eq]
@[simp] theorem State.writeBytes_fontset (s : State) (a : Nat) (bs : List Byte) : (s.writeBytes a bs).fontset = s.fontset := by
  rw [State.writeBytes_eq]
@[simp] theorem State.writeBytes_ops (s : State) (a : Nat) (bs : List Byte) : (s.writeBytes a bs).ops = s.ops := by
  rw [State.writeBytes_eq]
@[simp] theorem State.writeBytes_draws (s : State) (a : Nat) (bs : List Byte) : (s.writeBytes a bs).draws = s.draws := by
  rw [State.writeBytes_eq]
@[simp] theorem State.writeBytes_keys (s : State) (a : Nat) (bs : List Byte) : (s.writeBytes a bs).keys = s.keys := by
  rw [State.writeBytes_eq]
@[simp] theorem State.writeBytes_rnd (s : State) (a : Nat) (bs : List Byte) : (s.writeBytes a bs).rnd = s.rnd := by
  rw [State.writeBytes_eq]
@[simp] theorem State.writeBytes_result (s : State) (a : Nat) (bs : List Byte) : (s.writeBytes a bs).result = s.result := by
  rw [State.writeBytes_eq]

end Sys2Proof.Machine
end

