-- ==== Sys2Proof/Laws/Memory.lean ====
section
/-! SUPPORT. The laws of memory: a read after a write, and that every memory operation keeps the canonical form. -/

namespace Sys2Proof.Machine

/-! ### Reads after updates of the list -/

theorem Memory.read_erase (font : Fontset) (m : Memory) (a a' : Nat) :
    Memory.read font (m.erase a) a' = if a = a' then resetByte font a' else Memory.read font m a' := by
  induction m with
  | nil => simp [Memory.erase, Memory.read]
  | cons c m ih =>
    by_cases hc : c.1 = a
    · subst hc
      by_cases h : c.1 = a'
      · simpa [Memory.erase, h] using ih
      · simpa [Memory.erase, Memory.read, h] using ih
    · by_cases h : c.1 = a'
      · subst h
        simp [Memory.erase, Memory.read, hc, Ne.symm hc]
      · simpa [Memory.erase, Memory.read, hc, h] using ih

theorem Memory.read_insert (font : Fontset) (a : Nat) (b : Byte) (a' : Nat) (m : Memory) :
    (∀ c ∈ m, c.1 ≠ a) →
    Memory.read font (Memory.insert a b m) a' = if a = a' then b else Memory.read font m a' := by
  induction m with
  | nil => intro _; simp [Memory.insert, Memory.read]
  | cons c m ih =>
    intro hm
    have hc : c.1 ≠ a := hm c (by simp)
    by_cases hlt : a < c.1
    · simp [Memory.insert, hlt, Memory.read]
    · by_cases h : c.1 = a'
      · subst h
        simp [Memory.insert, hlt, Memory.read, Ne.symm hc]
      · simpa [Memory.insert, hlt, Memory.read, h] using ih fun d hd => hm d (by simp [hd])

theorem Memory.mem_erase {m : Memory} {a : Nat} {c : Host.Cell} (h : c ∈ m.erase a) : c ∈ m ∧ c.1 ≠ a := by
  simpa [Memory.erase] using h

/-- A read after a write, for every list, canonical or not. -/
theorem Memory.read_write (font : Fontset) (m : Memory) (a a' : Nat) (b : Byte) :
    Memory.read font (Memory.write font a b m) a' = if a = a' then b else Memory.read font m a' := by
  unfold Memory.write
  split
  · next hb =>
    rw [Memory.read_erase]
    split
    · next h => rw [hb, h]
    · rfl
  · rw [Memory.read_insert font a b a' _ fun c hc => (Memory.mem_erase hc).2, Memory.read_erase]
    split <;> rfl

/-! ### The canonical form is kept -/

theorem Memory.wf_nil (font : Fontset) : Memory.wf font [] := by simp [Memory.wf]

theorem Memory.wf_erase {font : Fontset} {m : Memory} (h : Memory.wf font m) (a : Nat) :
    Memory.wf font (m.erase a) :=
  ⟨h.1.filter _, fun c hc => h.2 c (Memory.mem_erase hc).1⟩

theorem Memory.mem_insert {a : Nat} {b : Byte} {m : Memory} {c : Host.Cell} (h : c ∈ Memory.insert a b m) :
    c = (a, b) ∨ c ∈ m := by
  induction m with
  | nil => simpa [Memory.insert] using h
  | cons d m ih =>
    by_cases hlt : a < d.1
    · simpa [Memory.insert, hlt] using h
    · rcases (by simpa [Memory.insert, hlt] using h : c = d ∨ c ∈ Memory.insert a b m) with h | h
      · exact .inr (by simp [h])
      · exact (ih h).imp_right fun h => by simp [h]

theorem Memory.pairwise_insert {a : Nat} {b : Byte} {m : Memory} (hs : m.Pairwise fun c d => c.1 < d.1)
    (ha : ∀ c ∈ m, c.1 ≠ a) : (Memory.insert a b m).Pairwise fun c d => c.1 < d.1 := by
  induction m with
  | nil => simp [Memory.insert]
  | cons d m ih =>
    have hd := List.pairwise_cons.1 hs
    by_cases hlt : a < d.1
    · simp only [Memory.insert, hlt, if_true]
      refine List.pairwise_cons.2 ⟨fun c hc => ?_, hs⟩
      rcases List.mem_cons.1 hc with rfl | hc
      · exact hlt
      · exact Nat.lt_trans hlt (hd.1 c hc)
    · simp only [Memory.insert, hlt, if_false]
      refine List.pairwise_cons.2 ⟨fun c hc => ?_, ih hd.2 fun c hc => ha c (by simp [hc])⟩
      rcases Memory.mem_insert hc with rfl | hc
      · have := ha d (by simp)
        show d.1 < a
        omega
      · exact hd.1 c hc

/-- Every write keeps the canonical form. -/
theorem Memory.wf_write {font : Fontset} {m : Memory} (h : Memory.wf font m) {a : Nat} (ha : a < 4096) (b : Byte) :
    Memory.wf font (Memory.write font a b m) := by
  unfold Memory.write
  split
  · exact Memory.wf_erase h a
  · next hb =>
    refine ⟨Memory.pairwise_insert (Memory.wf_erase h a).1 fun c hc => (Memory.mem_erase hc).2, fun c hc => ?_⟩
    rcases Memory.mem_insert hc with rfl | hc
    · exact ⟨ha, hb⟩
    · exact (Memory.wf_erase h a).2 c hc

/-! ### Memory as the state's operations see it -/

theorem maskAddr_lt (a : Nat) : maskAddr a < 4096 := Nat.mod_lt _ (by decide)

theorem State.readByte_writeByte (s : State) (a a' : Nat) (b : Byte) :
    (s.writeByte a b).readByte a' = if maskAddr a = maskAddr a' then b else s.readByte a' :=
  Memory.read_write s.fontset s.mem (maskAddr a) (maskAddr a') b

theorem State.wf_writeByte {s : State} (h : Memory.wf s.fontset s.mem) (a : Nat) (b : Byte) :
    Memory.wf (s.writeByte a b).fontset (s.writeByte a b).mem :=
  Memory.wf_write h (maskAddr_lt a) b

/-- Every run of byte writes keeps the canonical form. -/
theorem State.wf_writeBytes (bs : List Byte) : ∀ {s : State} (_ : Memory.wf s.fontset s.mem) (a : Nat),
    Memory.wf s.fontset (s.writeBytes a bs).mem := by
  induction bs with
  | nil => intro s h a; exact h
  | cons b bs ih => intro s h a; exact ih (s := s.writeByte a b) (State.wf_writeByte h a b) (a + 1)

/-- What a run of byte writes leaves in memory depends on the fontset and the memory it began with, and on nothing else. -/
theorem State.writeBytes_mem_congr (bs : List Byte) : ∀ {s t : State} (_ : s.fontset = t.fontset) (_ : s.mem = t.mem) (a : Nat),
    (s.writeBytes a bs).mem = (t.writeBytes a bs).mem := by
  induction bs with
  | nil => intro s t _ h a; exact h
  | cons b bs ih =>
    intro s t hf hm a
    exact ih (s := s.writeByte a b) (t := t.writeByte a b) hf
      (by rw [State.writeByte_mem, State.writeByte_mem, hf, hm]) (a + 1)

/-- A run of byte writes leaves every byte outside the run alone. -/
theorem State.readByte_writeBytes_outside (bs : List Byte) : ∀ (s : State) (a a' : Nat),
    (∀ k, k < bs.length → maskAddr a' ≠ maskAddr (a + k)) → (s.writeBytes a bs).readByte a' = s.readByte a' := by
  induction bs with
  | nil => intro s a a' _; rfl
  | cons b bs ih =>
    intro s a a' h
    have h0 : maskAddr a ≠ maskAddr a' := fun e => h 0 (by simp) e.symm
    rw [State.writeBytes, ih (s.writeByte a b) (a + 1) a' fun k hk => by
      rw [Nat.add_assoc, Nat.add_comm 1]; exact h (k + 1) (by simpa using hk)]
    rw [State.readByte_writeByte, if_neg h0]

/-- A run of at most 4096 byte writes leaves its `k`-th byte at its `k`-th address. -/
theorem State.readByte_writeBytes_inside (bs : List Byte) : ∀ (s : State) (a k : Nat) (hk : k < bs.length),
    bs.length ≤ 4096 → (s.writeBytes a bs).readByte (a + k) = bs[k] := by
  induction bs with
  | nil => intro s a k hk; simp at hk
  | cons b bs ih =>
    intro s a k hk hl
    simp only [List.length_cons] at hk hl
    cases k with
    | zero =>
      rw [State.writeBytes, State.readByte_writeBytes_outside bs _ _ _ fun k hk => by simp only [maskAddr]; omega,
        Nat.add_zero, State.readByte_writeByte, if_pos rfl]
      rfl
    | succ k =>
      have := ih (s.writeByte a b) (a + 1) k (by omega) (by omega)
      rw [Nat.add_assoc, Nat.add_comm 1] at this
      simpa [State.writeBytes] using this

end Sys2Proof.Machine
end

