-- ==== Sys2Proof/Laws/Ops.lean ====
section
/-! SUPPORT. One lemma per shared operation that says everything it can do; later proofs cite these. -/

namespace Sys2Proof.Machine

/-! ### The stack (R24, R25) -/

/-- A push raises at depth 16, and below it stores at `SP` and counts. -/
theorem State.push_cases (s : State) (w : Word) :
    (s.sp.val = 16 ∧ s.push w = .error .stackOverflow) ∨
    ∃ h : s.sp.val < 16, s.push w =
      .ok (s.setStack (s.stack.set s.sp.val w) ⟨s.sp.val + 1, by omega⟩) := by
  by_cases h : s.sp.val < 16
  · exact .inr ⟨h, by simp [State.push, h]⟩
  · exact .inl ⟨by omega, by simp [State.push, h]⟩

/-- A pop raises at depth 0, and above it answers the top entry and counts down. -/
theorem State.pop_cases (s : State) :
    (s.sp.val = 0 ∧ s.pop = .error .stackUnderflow) ∨
    ∃ h : 0 < s.sp.val, s.pop =
      .ok (s.stack[s.sp.val - 1], s.setStack s.stack ⟨s.sp.val - 1, by omega⟩) := by
  by_cases h : 0 < s.sp.val
  · exact .inr ⟨h, by simp [State.pop, h]⟩
  · exact .inl ⟨by omega, by simp [State.pop, h]⟩

/-! ### Registers -/

/-- A register read after a register write. -/
theorem State.setV_get (s : State) (x y : Reg) (b : Byte) :
    (s.setV x b).v[y] = if x = y then b else s.v[y] := by
  simp [State.setV, Vector.getElem_set, Fin.ext_iff]

/-- With a result and its flag both written, `VF` holds the flag whichever register the result went to (R15). -/
theorem State.setVWithFlag_get (s : State) (x y : Reg) (b f : Byte) :
    (s.setVWithFlag x b f).v[y] = if y = flagReg then f else if x = y then b else s.v[y] := by
  rw [State.setVWithFlag, State.setV_get, State.setV_get]
  simp only [eq_comm (a := flagReg)]

/-! ### The display (R23, R69) -/

@[simp] theorem pixelAt_blankFrame (px : Fin 64) (py : Fin 32) : pixelAt blankFrame px py = false := by
  simp [pixelAt, blankFrame]

/-- Flipping a pixel flips it and no other. -/
theorem pixelAt_flipPixel (fb : Framebuffer) (x x' : Fin 64) (y y' : Fin 32) :
    pixelAt (flipPixel fb x y) x' y' = if x = x' ∧ y = y' then !pixelAt fb x' y' else pixelAt fb x' y' := by
  by_cases hy : y = y'
  · subst hy
    by_cases hx : x = x'
    · subst hx; simp [pixelAt, flipPixel]
    · have : x.val ≠ x'.val := fun h => hx (Fin.ext h)
      simp [pixelAt, flipPixel, hx, this]
  · have : y.val ≠ y'.val := fun h => hy (Fin.ext h)
    simp [pixelAt, flipPixel, hy, this]

/-- Two framebuffers with the same pixels are equal. -/
theorem frame_ext {f g : Framebuffer} (h : ∀ px py, pixelAt f px py = pixelAt g px py) : f = g :=
  Vector.ext fun y hy => Vector.ext fun x hx => h ⟨x, hx⟩ ⟨y, hy⟩

/-- Where a sprite bit lands, under each edge policy (R70). -/
theorem target_eq_some_iff (edge : DrawEdge) (px py : Nat) (x : Fin 64) (y : Fin 32) :
    target edge px py = some (x, y) ↔
      match edge with
      | .clip => px = x.val ∧ py = y.val
      | .wrap => px % 64 = x.val ∧ py % 32 = y.val := by
  cases edge with
  | clip =>
    simp only [target]
    split
    · simp [Fin.ext_iff]
    · next h =>
      simp only [reduceCtorEq, false_iff]
      omega
  | wrap => simp [target, Fin.ext_iff]

/-! ### Raising and starting a step (R52, R109) -/

/-- A raised error writes the halt record and the result, and nothing else. -/
theorem State.raise_eq (s : State) (e : ErrorKind) (w a : Word) :
    s.raise e w a = { s with halt := true, err := e.code, errWord := w, errPc := a, result := .halted e.code } := rfl

/-- An error code is one of 1 to 4 (R108). -/
theorem ErrorKind.code_cases (e : ErrorKind) : e.code = 1#3 ∨ e.code = 2#3 ∨ e.code = 3#3 ∨ e.code = 4#3 := by
  cases e <;> simp [ErrorKind.code]

/-! ### Keys (R103) -/

/-- The lowest pressed key, when there is one, is pressed and no lower key is. -/
theorem lowestKey_some {keys : Word} {k : Fin 16} (h : lowestKey keys = some k) :
    keys.getLsbD k = true ∧ ∀ j : Fin 16, j < k → keys.getLsbD j = false := by
  obtain ⟨hk, as, bs, hl, ha⟩ := List.find?_eq_some_iff_append.1 h
  refine ⟨hk, fun j hj => ?_⟩
  have hs : (as ++ k :: bs).Pairwise (· < ·) := hl ▸ List.pairwise_lt_finRange 16
  have hm : j ∈ as ++ k :: bs := hl ▸ List.mem_finRange j
  rcases List.mem_append.1 hm with hm | hm
  · simpa using ha j hm
  · rcases List.mem_cons.1 hm with rfl | hm
    · exact absurd hj (lt_irrefl _)
    · exact absurd (lt_trans hj ((List.pairwise_cons.1 (List.pairwise_append.1 hs).2.1).1 j hm)) (lt_irrefl _)

/-- There is no lowest pressed key exactly when no key is pressed. -/
theorem lowestKey_none_iff (keys : Word) : lowestKey keys = none ↔ keys = 0#16 := by
  rw [lowestKey, List.find?_eq_none]
  constructor
  · intro h
    ext j hj
    simpa [BitVec.getLsbD_eq_getElem hj] using h ⟨j, hj⟩ (List.mem_finRange _)
  · rintro rfl k _
    simp

end Sys2Proof.Machine
end

