-- ==== Sys2Proof/Laws/PerInstr.lean ====
section
/-! SUPPORT. The per-instruction law `TableRow`: the encoding of every instruction carries, in its fixed bits, exactly what that
instruction's row of spec/opcode_table.json puts there. -/

namespace Sys2Proof.Laws

/-- The fixed bits of a row of spec/opcode_table.json below its top nibble. -/
inductive FixedLow where
  | none
  | nibble (n : Fin 16)
  | byte (nn : Byte)
  | wholeWord (w : Word)
  deriving DecidableEq, Repr

/-- A word has these fixed bits. -/
def FixedLow.FitsIn (w : Word) : FixedLow → Prop
  | .none => True
  | .nibble n => nField w = n
  | .byte nn => nnField w = nn
  | .wholeWord w' => w = w'

/-- The fixed bits of each instruction's row ("fixed" in spec/opcode_table.json): bits 15 to 12, and those below. -/
def tableFixed : Instr → BitVec 4 × FixedLow
  | .cls => (0x0#4, .wholeWord 0x00E0#16)
  | .ret => (0x0#4, .wholeWord 0x00EE#16)
  | .jp _ => (0x1#4, .none)
  | .call _ => (0x2#4, .none)
  | .seImm _ _ => (0x3#4, .none)
  | .sneImm _ _ => (0x4#4, .none)
  | .seReg _ _ => (0x5#4, .nibble 0x0)
  | .ldImm _ _ => (0x6#4, .none)
  | .addImm _ _ => (0x7#4, .none)
  | .ldReg _ _ => (0x8#4, .nibble 0x0)
  | .orReg _ _ => (0x8#4, .nibble 0x1)
  | .andReg _ _ => (0x8#4, .nibble 0x2)
  | .xorReg _ _ => (0x8#4, .nibble 0x3)
  | .addReg _ _ => (0x8#4, .nibble 0x4)
  | .subReg _ _ => (0x8#4, .nibble 0x5)
  | .shr _ _ => (0x8#4, .nibble 0x6)
  | .subnReg _ _ => (0x8#4, .nibble 0x7)
  | .shl _ _ => (0x8#4, .nibble 0xE)
  | .sneReg _ _ => (0x9#4, .nibble 0x0)
  | .ldI _ => (0xA#4, .none)
  | .jpOffset _ => (0xB#4, .none)
  | .rnd _ _ => (0xC#4, .none)
  | .drw _ _ _ => (0xD#4, .none)
  | .skp _ => (0xE#4, .byte 0x9E#8)
  | .sknp _ => (0xE#4, .byte 0xA1#8)
  | .ldVxDt _ => (0xF#4, .byte 0x07#8)
  | .ldVxK _ => (0xF#4, .byte 0x0A#8)
  | .ldDtVx _ => (0xF#4, .byte 0x15#8)
  | .ldStVx _ => (0xF#4, .byte 0x18#8)
  | .addI _ => (0xF#4, .byte 0x1E#8)
  | .ldF _ => (0xF#4, .byte 0x29#8)
  | .ldB _ => (0xF#4, .byte 0x33#8)
  | .ldMemVx _ => (0xF#4, .byte 0x55#8)
  | .ldVxMem _ => (0xF#4, .byte 0x65#8)

/-- The encoding of `i` has the fixed bits of its row. -/
def TableRow.Statement (i : Instr) : Prop :=
  opField (encode i) = (tableFixed i).1 ∧ (tableFixed i).2.FitsIn (encode i)

/-! ### One lemma for each shape of a row -/

theorem rowNNN {i : Instr} {op : BitVec 4} {nnn : Addr12} (he : encode i = wordNNN op nnn)
    (ht : tableFixed i = (op, .none)) : TableRow.Statement i := by
  simp [TableRow.Statement, he, ht, FixedLow.FitsIn]

theorem rowXNN {i : Instr} {op : BitVec 4} {x : Reg} {nn : Byte} (he : encode i = wordXNN op x nn)
    (ht : tableFixed i = (op, .none)) : TableRow.Statement i := by
  simp [TableRow.Statement, he, ht, FixedLow.FitsIn]

theorem rowXNN_byte {i : Instr} {op : BitVec 4} {x : Reg} {nn : Byte} (he : encode i = wordXNN op x nn)
    (ht : tableFixed i = (op, .byte nn)) : TableRow.Statement i := by
  simp [TableRow.Statement, he, ht, FixedLow.FitsIn]

theorem rowXYN {i : Instr} {op : BitVec 4} {x y : Reg} {n : Fin 16} (he : encode i = wordXYN op x y n)
    (ht : tableFixed i = (op, .none)) : TableRow.Statement i := by
  simp [TableRow.Statement, he, ht, FixedLow.FitsIn]

theorem rowXYN_nibble {i : Instr} {op : BitVec 4} {x y : Reg} {n : Fin 16} (he : encode i = wordXYN op x y n)
    (ht : tableFixed i = (op, .nibble n)) : TableRow.Statement i := by
  simp [TableRow.Statement, he, ht, FixedLow.FitsIn]

/-! ### The law, one lemma for each constructor -/

theorem TableRow.cls : TableRow.Statement .cls := ⟨by decide, rfl⟩
theorem TableRow.ret : TableRow.Statement .ret := ⟨by decide, rfl⟩
theorem TableRow.jp (nnn : Addr12) : TableRow.Statement (.jp nnn) := rowNNN rfl rfl
theorem TableRow.call (nnn : Addr12) : TableRow.Statement (.call nnn) := rowNNN rfl rfl
theorem TableRow.seImm (x : Reg) (nn : Byte) : TableRow.Statement (.seImm x nn) := rowXNN rfl rfl
theorem TableRow.sneImm (x : Reg) (nn : Byte) : TableRow.Statement (.sneImm x nn) := rowXNN rfl rfl
theorem TableRow.seReg (x : Reg) (y : Reg) : TableRow.Statement (.seReg x y) := rowXYN_nibble rfl rfl
theorem TableRow.ldImm (x : Reg) (nn : Byte) : TableRow.Statement (.ldImm x nn) := rowXNN rfl rfl
theorem TableRow.addImm (x : Reg) (nn : Byte) : TableRow.Statement (.addImm x nn) := rowXNN rfl rfl
theorem TableRow.ldReg (x : Reg) (y : Reg) : TableRow.Statement (.ldReg x y) := rowXYN_nibble rfl rfl
theorem TableRow.orReg (x : Reg) (y : Reg) : TableRow.Statement (.orReg x y) := rowXYN_nibble rfl rfl
theorem TableRow.andReg (x : Reg) (y : Reg) : TableRow.Statement (.andReg x y) := rowXYN_nibble rfl rfl
theorem TableRow.xorReg (x : Reg) (y : Reg) : TableRow.Statement (.xorReg x y) := rowXYN_nibble rfl rfl
theorem TableRow.addReg (x : Reg) (y : Reg) : TableRow.Statement (.addReg x y) := rowXYN_nibble rfl rfl
theorem TableRow.subReg (x : Reg) (y : Reg) : TableRow.Statement (.subReg x y) := rowXYN_nibble rfl rfl
theorem TableRow.shr (x : Reg) (y : Reg) : TableRow.Statement (.shr x y) := rowXYN_nibble rfl rfl
theorem TableRow.subnReg (x : Reg) (y : Reg) : TableRow.Statement (.subnReg x y) := rowXYN_nibble rfl rfl
theorem TableRow.shl (x : Reg) (y : Reg) : TableRow.Statement (.shl x y) := rowXYN_nibble rfl rfl
theorem TableRow.sneReg (x : Reg) (y : Reg) : TableRow.Statement (.sneReg x y) := rowXYN_nibble rfl rfl
theorem TableRow.ldI (nnn : Addr12) : TableRow.Statement (.ldI nnn) := rowNNN rfl rfl
theorem TableRow.jpOffset (nnn : Addr12) : TableRow.Statement (.jpOffset nnn) := rowNNN rfl rfl
theorem TableRow.rnd (x : Reg) (nn : Byte) : TableRow.Statement (.rnd x nn) := rowXNN rfl rfl
theorem TableRow.drw (x : Reg) (y : Reg) (n : Fin 16) : TableRow.Statement (.drw x y n) := rowXYN rfl rfl
theorem TableRow.skp (x : Reg) : TableRow.Statement (.skp x) := rowXNN_byte rfl rfl
theorem TableRow.sknp (x : Reg) : TableRow.Statement (.sknp x) := rowXNN_byte rfl rfl
theorem TableRow.ldVxDt (x : Reg) : TableRow.Statement (.ldVxDt x) := rowXNN_byte rfl rfl
theorem TableRow.ldVxK (x : Reg) : TableRow.Statement (.ldVxK x) := rowXNN_byte rfl rfl
theorem TableRow.ldDtVx (x : Reg) : TableRow.Statement (.ldDtVx x) := rowXNN_byte rfl rfl
theorem TableRow.ldStVx (x : Reg) : TableRow.Statement (.ldStVx x) := rowXNN_byte rfl rfl
theorem TableRow.addI (x : Reg) : TableRow.Statement (.addI x) := rowXNN_byte rfl rfl
theorem TableRow.ldF (x : Reg) : TableRow.Statement (.ldF x) := rowXNN_byte rfl rfl
theorem TableRow.ldB (x : Reg) : TableRow.Statement (.ldB x) := rowXNN_byte rfl rfl
theorem TableRow.ldMemVx (x : Reg) : TableRow.Statement (.ldMemVx x) := rowXNN_byte rfl rfl
theorem TableRow.ldVxMem (x : Reg) : TableRow.Statement (.ldVxMem x) := rowXNN_byte rfl rfl

end Sys2Proof.Laws
end

