-- ==== Sys2Proof/Laws/Step.lean ====
section
/-! SUPPORT. What one step of the model can be, said once. -/

namespace Sys2Proof.Machine

/-- Why a decode fails: always the word itself. -/
theorem decode_error {w : Word} {e : DecodeError} (h : decode w = .error e) : e = .unknownInstruction w := by
  unfold decode decodeFamily0 decodeFamily5 decodeFamily8 decodeFamily9 decodeFamilyE decodeFamilyF at h
  repeat' split at h
  all_goals first
    | exact (Except.error.inj h).symm
    | exact absurd h (by simp)

/-- What `STEP` can do (R52): report the stored error, run the decoded instruction, or raise `UnknownInstruction`. -/
theorem stepOp_cases (keys : Word) (rnd : Byte) (s : State) :
    (s.halt = true ∧ stepOp keys rnd s = .next (s.finish (.halted s.err))) ∨
    (s.halt = false ∧ ∃ i, decode (s.fetch s.pc) = .ok i ∧ stepOp keys rnd s = exec i (s.beginStep keys rnd)) ∨
    (s.halt = false ∧ decode (s.fetch s.pc) = .error (.unknownInstruction (s.fetch s.pc)) ∧
      stepOp keys rnd s =
        .next ((s.beginStep keys rnd).raise .unknownInstruction (s.fetch s.pc) s.pc)) := by
  cases hh : s.halt with
  | true => exact .inl ⟨rfl, by simp [stepOp, hh]⟩
  | false =>
    cases hd : decode (s.fetch s.pc) with
    | ok i => exact .inr (.inl ⟨rfl, i, rfl, by simp [stepOp, hh, hd]⟩)
    | error e =>
      obtain rfl := decode_error hd
      exact .inr (.inr ⟨rfl, rfl, by simp [stepOp, hh, hd]⟩)

/-- What one step of the model can be: one operation of the block, on the state whose schedule has moved on. -/
theorem step_cases (s : State) :
    (∃ keys rnd, s.nextOp = .step keys rnd ∧ step s = stepOp keys rnd s.takeOp) ∨
    (s.nextOp = .tick ∧ step s = .next (tickOp s.takeOp)) ∨
    (s.nextOp = .readFb ∧ step s = .next (readFbOp s.takeOp)) ∨
    (s.nextOp = .clearDirty ∧ step s = .next (clearDirtyOp s.takeOp)) ∨
    (∃ rom, s.nextOp = .load rom ∧ step s = loadOp rom s.takeOp) ∨
    (∃ legacy, s.nextOp = .reset legacy ∧ step s = .next (resetOp legacy s.takeOp)) := by
  unfold step
  cases s.nextOp <;> simp [runOp]

end Sys2Proof.Machine
end

