-- ==== Sys2Proof/Tests/Slice0.lean ====
section
/-! SUPPORT. Small tests of the model, expected values from 95_test_vectors.md (the id of each vector stands beside its test) or by hand from
the rule named; the smoke tests of WellFormed; one decoding of every constructor; and a witness for the hypotheses of each
statement. -/

namespace Sys2Proof.Tests

open Sys2Proof Sys2Proof.Machine

/-- The state after one step (the state itself, should the step stop). -/
def after (s : State) : State := match step s with | .next t => t | _ => s

/-- The state after one `STEP` of an instruction word placed at `PC`. -/
def runWord (w : Nat) (s : State) : State := after (s.withFetchWord 16 w)

/-- The state after one operation of the host. -/
def runHost (op : HostOp) (s : State) : State := after { s with ops := [op] }

/-- Registers set on top of the reset state. -/
def withV (rs : List (Reg × Byte)) (s : State) : State := rs.foldl (fun s r => s.setV r.1 r.2) s

/-- The reset state in legacy mode. -/
def legacyReset : State := State.resetWith true .clip defaultFontset

/-- A state halted by an illegal word, as reset without a program leaves it (R124). -/
def haltedState : State := runHost (.step 0x0000#16 0x00#8) State.reset

/-! ### WellFormed: each check refuses an illegal word (R63) -/

theorem test_illegal_family0 : legalWord 0x0120#16 = false := by decide
theorem test_illegal_family5or9 : legalWord 0x5121#16 = false ∧ legalWord 0x9121#16 = false := by decide
theorem test_illegal_family8 : legalWord 0x8128#16 = false ∧ legalWord 0x812F#16 = false := by decide
theorem test_illegal_familyE : legalWord 0xE19F#16 = false := by decide
theorem test_illegal_familyF : legalWord 0xF175#16 = false := by decide
theorem test_legal_words : legalWord 0x00EE#16 = true ∧ legalWord 0x812E#16 = true ∧ legalWord 0xF165#16 = true := by decide

/-! ### Decode: a word written out from the pattern of every constructor (R57 to R62, opcode_table.json) -/

theorem test_decode_family0 : decode 0x00E0#16 = .ok .cls ∧ decode 0x00EE#16 = .ok .ret ∧
    decode 0x00E1#16 = .error (.unknownInstruction 0x00E1#16) := by decide
theorem test_decode_jumps : decode 0x1ABD#16 = .ok (.jp 0xABD#12) ∧ decode 0x2345#16 = .ok (.call 0x345#12) ∧
    decode 0xB210#16 = .ok (.jpOffset 0x210#12) := by decide
theorem test_decode_skips : decode 0x3342#16 = .ok (.seImm 3 0x42#8) ∧ decode 0x4A0F#16 = .ok (.sneImm 0xA 0x0F#8) ∧
    decode 0x5120#16 = .ok (.seReg 1 2) ∧ decode 0x9340#16 = .ok (.sneReg 3 4) := by decide
theorem test_decode_immediates : decode 0x6A5C#16 = .ok (.ldImm 0xA 0x5C#8) ∧ decode 0x7F01#16 = .ok (.addImm 0xF 0x01#8) ∧
    decode 0xC30F#16 = .ok (.rnd 3 0x0F#8) ∧ decode 0xA204#16 = .ok (.ldI 0x204#12) := by decide
theorem test_decode_family8 : decode 0x8130#16 = .ok (.ldReg 1 3) ∧ decode 0x8121#16 = .ok (.orReg 1 2) ∧
    decode 0x8122#16 = .ok (.andReg 1 2) ∧ decode 0x8123#16 = .ok (.xorReg 1 2) ∧ decode 0x8F14#16 = .ok (.addReg 0xF 1) ∧
    decode 0x81F5#16 = .ok (.subReg 1 0xF) ∧ decode 0x8126#16 = .ok (.shr 1 2) ∧ decode 0x8127#16 = .ok (.subnReg 1 2) ∧
    decode 0x812E#16 = .ok (.shl 1 2) := by decide
theorem test_decode_draw : decode 0xDAB1#16 = .ok (.drw 0xA 0xB 1) := by decide
theorem test_decode_keys : decode 0xE19E#16 = .ok (.skp 1) ∧ decode 0xE2A1#16 = .ok (.sknp 2) ∧
    decode 0xE19F#16 = .error (.unknownInstruction 0xE19F#16) := by decide
theorem test_decode_familyF : decode 0xF107#16 = .ok (.ldVxDt 1) ∧ decode 0xF30A#16 = .ok (.ldVxK 3) ∧
    decode 0xF215#16 = .ok (.ldDtVx 2) ∧ decode 0xF218#16 = .ok (.ldStVx 2) ∧ decode 0xF21E#16 = .ok (.addI 2) ∧
    decode 0xF429#16 = .ok (.ldF 4) ∧ decode 0xF533#16 = .ok (.ldB 5) ∧ decode 0xF255#16 = .ok (.ldMemVx 2) ∧
    decode 0xF265#16 = .ok (.ldVxMem 2) := by decide
theorem test_decode_table_word : decodeTableWord 16 0x6A5C = some (.ldImm 0xA 0x5C#8) ∧ decodeTableWord 16 0x5121 = none := by
  decide
theorem test_encode : encode (.drw 0xA 0xB 1) = 0xDAB1#16 ∧ encode (.shl 1 2) = 0x812E#16 ∧ encode (.ldB 5) = 0xF533#16 := by
  decide

/-! ### Fetch and memory -/

/-- V-DEC-9: the fetch wraps, its bytes at 0xFFF and 0x000. -/
theorem test_fetch_wraps : (runWord 0x6A5C (State.reset.setPc 0x0FFF#16)).v[0xA] = 0x5C#8 ∧
    (runWord 0x6A5C (State.reset.setPc 0x0FFF#16)).pc = 0x1001#16 := by decide
/-- V-DEC-8: an odd `PC` fetches. -/
theorem test_fetch_odd : (runWord 0x6A5C (State.reset.setPc 0x0201#16)).pc = 0x0203#16 := by decide
/-- Writing what an unlisted address reads as removes the cell (the model's canonical form). -/
theorem test_write_back_removes_cell : ((State.reset.writeByte 0x300 0x01#8).writeByte 0x300 0x00#8).mem = [] := by decide
/-- V-LOAD-8: the default font and the zero fill. -/
theorem test_reset_memory : State.reset.readByte 0x04F = 0x80#8 ∧ State.reset.readByte 0x050 = 0x00#8 ∧
    State.reset.readByte 0x1000 = 0xF0#8 := by decide

/-! ### Display -/

/-- V-DISP-1. -/
theorem test_cls : pixelAt (runWord 0x00E0 (State.reset.setDisplay (flipPixel blankFrame 3 4))).fb 3 4 = false := by decide
/-- V-DISP-2: `DIRTY` is set on a blank screen too. -/
theorem test_cls_dirty : (runWord 0x00E0 State.reset).dirty = true := by decide
/-- V-DISP-7: the row comes from `VF` before the flag is written; clipped at column 64. -/
theorem test_drw_clip :
    let t := runWord 0xD0F1 ((withV [(0, 0x3C#8), (0xF, 0x1F#8)] (State.reset.setIndex 0x300#16)).writeByte 0x300 0xFF#8)
    t.v[0xF] = 0x00#8 ∧ pixelAt t.fb 63 31 = true ∧ pixelAt t.fb 0 31 = false := by decide
/-- V-DISP-8 and V-DISP-13: the same sprite wraps; a collision sets `VF`. -/
theorem test_drw_wrap_collides :
    let s := { State.reset with drawEdge := .wrap, fb := flipPixel blankFrame 0 31 }
    let t := runWord 0xD0F1 ((withV [(0, 0x3C#8), (0xF, 0x1F#8)] (s.setIndex 0x300#16)).writeByte 0x300 0xFF#8)
    t.v[0xF] = 0x01#8 ∧ pixelAt t.fb 0 31 = false ∧ pixelAt t.fb 3 31 = true := by decide

/-! ### Control transfer -/

/-- V-CF-1. -/
theorem test_ret :
    let t := runWord 0x00EE ((State.reset.setStack (Vector.replicate 16 0x0202#16) 1).setPc 0x0300#16)
    t.pc = 0x0202#16 ∧ t.sp.val = 0 := by decide
/-- V-CF-2. -/
theorem test_ret_underflow :
    let t := runWord 0x00EE (State.reset.setPc 0x0300#16)
    t.pc = 0x0300#16 ∧ t.halt = true ∧ t.err = 3#3 ∧ t.errWord = 0x00EE#16 ∧ t.errPc = 0x0300#16 := by decide
/-- V-CF-5. -/
theorem test_jp : (runWord 0x1ABD State.reset).pc = 0x0ABD#16 := by decide
/-- V-CF-9: the pushed return address wraps. -/
theorem test_call :
    let t := runWord 0x2300 ((State.reset.setStack (Vector.replicate 16 0xAAAA#16) 0).setPc 0xFFFE#16)
    t.pc = 0x0300#16 ∧ t.sp.val = 1 ∧ t.stack[0] = 0x0000#16 := by decide
/-- V-CF-8. -/
theorem test_call_overflow :
    let t := runWord 0x2300 (State.reset.setStack (Vector.replicate 16 0x0202#16) 16)
    t.pc = 0x0200#16 ∧ t.err = 2#3 ∧ t.errWord = 0x2300#16 ∧ t.sp.val = 16 := by decide
/-- V-CF-10 and V-CF-21. -/
theorem test_se_imm : (runWord 0x3342 (State.reset.setV 3 0x42#8)).pc = 0x0204#16 ∧
    (runWord 0x3300 (State.reset.setPc 0xFFFC#16)).pc = 0x0000#16 := by decide
/-- V-CF-12 and V-CF-13. -/
theorem test_sne_imm : (runWord 0x4342 (State.reset.setV 3 0x42#8)).pc = 0x0202#16 ∧
    (runWord 0x4342 State.reset).pc = 0x0204#16 := by decide
/-- V-CF-14 and V-CF-15. -/
theorem test_se_reg : (runWord 0x5120 (withV [(1, 7), (2, 7)] State.reset)).pc = 0x0204#16 ∧
    (runWord 0x5120 (withV [(1, 7), (2, 8)] State.reset)).pc = 0x0202#16 := by decide
/-- V-CF-17 and V-CF-18. -/
theorem test_sne_reg : (runWord 0x9120 (withV [(1, 7), (2, 8)] State.reset)).pc = 0x0204#16 ∧
    (runWord 0x9120 (withV [(1, 7), (2, 7)] State.reset)).pc = 0x0202#16 := by decide
/-- V-CF-19 modern and V-CF-20 legacy. -/
theorem test_jp_offset : (runWord 0xB210 (withV [(0, 4), (2, 6)] State.reset)).pc = 0x0016#16 ∧
    (runWord 0xBFFF (withV [(0, 0x10), (0xF, 1)] legacyReset)).pc = 0x100F#16 := by decide

/-! ### Register arithmetic and logic -/

/-- V-ALU-1. -/
theorem test_ld_imm : (runWord 0x6A5C State.reset).v[0xA] = 0x5C#8 := by decide
/-- V-ALU-3: wraps, `VF` untouched. -/
theorem test_add_imm :
    let t := runWord 0x7001 (withV [(0, 0xFF), (0xF, 7)] State.reset)
    t.v[0] = 0x00#8 ∧ t.v[0xF] = 0x07#8 := by decide
/-- V-ALU-5. -/
theorem test_ld_reg : (runWord 0x8130 (State.reset.setV 3 0x11#8)).v[1] = 0x11#8 := by decide
/-- V-ALU-6. -/
theorem test_or :
    let t := runWord 0x8121 (withV [(1, 0x0F), (2, 0xF0), (0xF, 5)] State.reset)
    t.v[1] = 0xFF#8 ∧ t.v[0xF] = 0x05#8 := by decide
/-- V-ALU-7. -/
theorem test_and : (runWord 0x8122 (withV [(1, 0x3C), (2, 0x0F)] State.reset)).v[1] = 0x0C#8 := by decide
/-- V-ALU-8. -/
theorem test_xor : (runWord 0x8123 (withV [(1, 0x3C), (2, 0x0F)] State.reset)).v[1] = 0x33#8 := by decide
/-- V-ALU-10 and V-ALU-12: with `x = F` the flag wins. -/
theorem test_add_carry :
    let t := runWord 0x8124 (withV [(1, 0xFF), (2, 1)] State.reset)
    (t.v[1] = 0x00#8 ∧ t.v[0xF] = 0x01#8) ∧ (runWord 0x8F14 (withV [(0xF, 0x90), (1, 0x90)] State.reset)).v[0xF] = 0x01#8 := by
  decide
/-- V-ALU-11: 255 exactly is no carry. -/
theorem test_add_no_carry : (runWord 0x8124 (withV [(1, 0x7F), (2, 0x80), (0xF, 1)] State.reset)).v[0xF] = 0x00#8 := by decide
/-- V-ALU-15. -/
theorem test_sub_borrow :
    let t := runWord 0x8125 (withV [(1, 5), (2, 7)] State.reset)
    t.v[1] = 0xFE#8 ∧ t.v[0xF] = 0x00#8 := by decide
/-- V-ALU-16: equal operands do not borrow. -/
theorem test_sub_equal : (runWord 0x8125 (withV [(1, 7), (2, 7)] State.reset)).v[0xF] = 0x01#8 := by decide
/-- V-ALU-18 in both modes. -/
theorem test_shr :
    let t := runWord 0x8126 (withV [(1, 5), (2, 0x0C)] State.reset)
    let u := runWord 0x8126 (withV [(1, 5), (2, 0x0C)] legacyReset)
    (t.v[1] = 0x02#8 ∧ t.v[0xF] = 0x01#8) ∧ (u.v[1] = 0x06#8 ∧ u.v[0xF] = 0x00#8) := by decide
/-- V-ALU-20. -/
theorem test_subn :
    let t := runWord 0x8127 (withV [(1, 5), (2, 7)] State.reset)
    t.v[1] = 0x02#8 ∧ t.v[0xF] = 0x01#8 := by decide
/-- V-ALU-22 modern and V-ALU-23 legacy, whose source is `VF` itself. -/
theorem test_shl :
    let t := runWord 0x812E (withV [(1, 0x81), (2, 0x40)] State.reset)
    (t.v[1] = 0x02#8 ∧ t.v[0xF] = 0x01#8) ∧ (runWord 0x81FE (withV [(0xF, 0x80)] legacyReset)).v[0xF] = 0x01#8 := by decide
/-- V-ALU-24. -/
theorem test_rnd : (runWord 0xC30F { State.reset with rnd := 0xB6#8 }).v[3] = 0x06#8 := by decide

/-! ### The index register and memory transfer -/

/-- V-IDX-1. -/
theorem test_ld_i : (runWord 0xA204 State.reset).i = 0x0204#16 := by decide
/-- V-IDX-2 and V-IDX-3. -/
theorem test_add_i : (runWord 0xF21E (withV [(2, 2)] (State.reset.setIndex 0x0FFF#16))).i = 0x1001#16 ∧
    (runWord 0xF21E (withV [(2, 1)] (State.reset.setIndex 0xFFFF#16))).i = 0x0000#16 := by decide
/-- V-IDX-5: not masked to a digit. -/
theorem test_ld_f : (runWord 0xF429 (State.reset.setV 4 0x1A#8)).i = 0x0082#16 := by decide
/-- V-IDX-7: the units digit wraps to 0x000. -/
theorem test_ld_b :
    let t := runWord 0xF533 (withV [(5, 0xFE)] (State.reset.setIndex 0x0FFE#16))
    t.readByte 0xFFE = 0x02#8 ∧ t.readByte 0xFFF = 0x05#8 ∧ t.readByte 0x000 = 0x04#8 := by decide
/-- V-IDX-12: the address wraps per byte, and legacy `I` passes 0xFFF. -/
theorem test_ld_mem_vx :
    let t := runWord 0xF155 (withV [(0, 0x12), (1, 0x34)] (legacyReset.setIndex 0x0FFF#16))
    t.readByte 0xFFF = 0x12#8 ∧ t.readByte 0x000 = 0x34#8 ∧ t.i = 0x1001#16 := by decide
/-- V-IDX-8 modern: `I` stays. -/
theorem test_ld_mem_vx_modern : (runWord 0xF255 (State.reset.setIndex 0x300#16)).i = 0x0300#16 := by decide
/-- V-IDX-10 legacy, here from the font (R19), and the register above the range stays. -/
theorem test_ld_vx_mem :
    let t := runWord 0xF265 (withV [(3, 0x77)] (legacyReset.setIndex 0x0004#16))
    t.v[0] = 0xF0#8 ∧ t.v[1] = 0x20#8 ∧ t.v[2] = 0x60#8 ∧ t.v[3] = 0x77#8 ∧ t.i = 0x0007#16 := by decide

/-! ### Keys and timers -/

/-- V-KT-1 and V-KT-3. -/
theorem test_skp : (runWord 0xE19E (withV [(1, 0x0A)] { State.reset with keys := 0x0400#16 })).pc = 0x0204#16 ∧
    (runWord 0xE19E (withV [(1, 0x10)] { State.reset with keys := 0xFFFF#16 })).pc = 0x0202#16 := by decide
/-- V-KT-5 and V-KT-6. -/
theorem test_sknp : (runWord 0xE1A1 (withV [(1, 0x0A)] { State.reset with keys := 0x0400#16 })).pc = 0x0202#16 ∧
    (runWord 0xE1A1 (withV [(1, 0x20)] { State.reset with keys := 0xFFFF#16 })).pc = 0x0204#16 := by decide
/-- V-KT-8. -/
theorem test_ld_vx_k :
    let t := runWord 0xF30A { State.reset with keys := 0x0028#16 }
    t.v[3] = 0x03#8 ∧ t.pc = 0x0202#16 ∧ t.result = .advanced := by decide
/-- V-KT-7. -/
theorem test_ld_vx_k_blocked : (runWord 0xF30A State.reset).pc = 0x0200#16 ∧ (runWord 0xF30A State.reset).result = .blocked := by
  decide
/-- V-KT-10. -/
theorem test_ld_vx_dt : (runWord 0xF107 (State.reset.setDelay 60#8)).v[1] = 0x3C#8 := by decide
/-- V-KT-11. -/
theorem test_ld_dt_vx : (runWord 0xF215 (State.reset.setV 2 0x05#8)).dt = 5#8 := by decide
/-- V-KT-13. -/
theorem test_ld_st_vx :
    let t := runWord 0xF218 (State.reset.setSound 4#8)
    t.st = 0#8 ∧ t.toneOff = false := by decide

/-! ### The host's operations -/

/-- V-TICK-2. -/
theorem test_tick_tone_off :
    let t := runHost .tick (State.reset.setSound 1#8)
    t.st = 0#8 ∧ t.toneOff = true ∧ t.result = .toneOff true ∧ (runHost .tick t).toneOff = false := by decide
/-- V-LOAD-6: the zero word at 0x200. -/
theorem test_step_without_load : haltedState.err = 4#3 ∧ haltedState.errWord = 0x0000#16 ∧ haltedState.errPc = 0x0200#16 ∧
    haltedState.pc = 0x0200#16 ∧ haltedState.started = true := by decide
/-- V-LOAD-7: reset leaves a halt. -/
theorem test_reset_leaves_halt : (runHost (.reset true) haltedState).halt = false ∧
    (runHost (.reset true) haltedState).legacy = true := by decide
/-- E8, its load: the program's bytes from 0x200. -/
theorem test_load :
    let t := runHost (.load [0x60#8, 0x05#8, 0x70#8, 0x03#8]) State.reset
    t.fetch 0x0202#16 = 0x7003#16 ∧ t.loaded = true ∧ t.result = .ok := by decide

/-! ### Witnesses: a concrete state and operands that meet all the hypotheses of each statement -/

/-- The step has a next state. -/
def goesOn (s : State) : Bool := match step s with | .next _ => true | _ => false

theorem step_after {s : State} (h : goesOn s = true) : step s = .next (after s) := by
  unfold goesOn at h
  unfold after
  cases hs : step s <;> simp_all

/-- A state whose next operation is `op`. -/
def asked (op : HostOp) (s : State) : State := { s with ops := [op] }

/-- A state about to run an instruction word. -/
def placed (w : Nat) (s : State) : State := s.withFetchWord 16 w

/-- The reset state with `n` entries of 0x0202 on the stack. -/
def stacked (n : Fin 17) : State := State.reset.setStack (Vector.replicate 16 0x0202#16) n

/-- The reset state with one pixel on. -/
def onePixel : State := State.reset.setDisplay (flipPixel blankFrame 3 4)

theorem executes_placed {s : State} {i : Instr} (w : Nat) (h : decode ((placed w s).fetch (placed w s).pc) = .ok i) :
    Executes (placed w s) i := ⟨rfl, ⟨_, _, rfl⟩, h⟩

theorem witness_EncodeOfDecodeIsIdentity : decode 0x812E#16 = .ok (.shl 1 2) := by decide

theorem witness_EveryWordDecodesOrIsIllegal : (∃ i, decode 0x6005#16 = .ok i) ∧
    decode 0x0000#16 = .error (.unknownInstruction 0x0000#16) := ⟨⟨_, rfl⟩, by decide⟩

theorem witness_StepRunsDecodedInstruction :
    (placed 0x6A5C State.reset).nextOp = .step 0x0000#16 0x00#8 ∧ (placed 0x6A5C State.reset).halt = false ∧
    decode ((placed 0x6A5C State.reset).fetch (placed 0x6A5C State.reset).pc) = .ok (.ldImm 0xA 0x5C#8) := by decide

theorem witness_IllegalWordRaisesUnknownInstruction :
    (asked (.step 0x0001#16 0x02#8) State.reset).nextOp = .step 0x0001#16 0x02#8 ∧ State.reset.halt = false ∧
    legalWord (State.reset.fetch State.reset.pc) = false := by decide

theorem witness_StoredBytesAreFetched : (1 : Reg) ≤ 1 := by decide

theorem witness_CanonicalMemoriesAreDeterminedByReads :
    Memory.wf defaultFontset [(0x000, 0x01#8), (0xFFF, 0x02#8)] ∧
    ∀ a, a < 4096 → Memory.read defaultFontset [(0x000, 0x01#8), (0xFFF, 0x02#8)] a =
      Memory.read defaultFontset [(0x000, 0x01#8), (0xFFF, 0x02#8)] a := ⟨by decide, fun _ _ => rfl⟩

theorem witness_StepKeepsInvariant : haltedState.Inv ∧ ∃ t, step (asked .clearDirty haltedState) = .next t :=
  ⟨⟨by decide, fun h => absurd h (by decide),
    fun _ => .inr (.inr (.inr ⟨by decide, by decide, by decide, by decide, by decide⟩))⟩, _, step_after (by decide)⟩

theorem witness_ResetSetsEveryElement : (asked (.reset true) haltedState).nextOp = .reset true := by decide

/-- The three clauses: a ROM of exactly 3584 bytes in the window, one byte more, and a second load. -/
theorem witness_LoadCopiesRomOrRaises :
    ((asked (.load (List.replicate 3584 0xAB#8)) State.reset).nextOp = .load (List.replicate 3584 0xAB#8) ∧
      State.reset.halt = false ∧ State.reset.started = false ∧ State.reset.loaded = false ∧
      (List.replicate 3584 0xAB#8).length ≤ 3584) ∧
    ((asked (.load (List.replicate 3585 0xAB#8)) State.reset).nextOp = .load (List.replicate 3585 0xAB#8) ∧
      3584 < (List.replicate 3585 0xAB#8).length) ∧
    ((asked (.load []) State.reset.setLoaded).nextOp = .load [] ∧ State.reset.setLoaded.loaded = true) :=
  ⟨⟨rfl, rfl, rfl, rfl, by rw [List.length_replicate]⟩, ⟨rfl, by rw [List.length_replicate]; decide⟩, rfl, rfl⟩

/-- Both clauses, and both timers at the boundary. -/
theorem witness_TickCountsBothTimersDown :
    ((asked .tick haltedState).nextOp = .tick ∧ (asked .tick haltedState).halt = true) ∧
    ((asked .tick (State.reset.setSound 1#8)).nextOp = .tick ∧ State.reset.halt = false ∧
      (State.reset.setSound 1#8).st.toNat = 1) ∧
    ((asked .tick State.reset).nextOp = .tick ∧ State.reset.st.toNat ≠ 1) := by decide

theorem witness_ToneOffHoldsUntilNextTick :
    (∃ t, step (placed 0xF218 (State.reset.setTone true)) = .next t) ∧
    (placed 0xF218 (State.reset.setTone true)).nextOp ≠ .tick ∧
    ∀ legacy, (placed 0xF218 (State.reset.setTone true)).nextOp ≠ .reset legacy :=
  ⟨⟨_, step_after (by decide)⟩, by decide, by decide⟩

theorem witness_RendererReadsAndClearsDirty :
    (asked .readFb onePixel).nextOp = .readFb ∧ (asked .clearDirty onePixel).nextOp = .clearDirty := by decide

theorem witness_HaltedStepAndTickChangeNothing :
    haltedState.halt = true ∧ (asked (.step 0x0001#16 0x02#8) haltedState).nextOp = .step 0x0001#16 0x02#8 ∧
    (asked .tick haltedState).nextOp = .tick := by decide

theorem witness_OnlyResetLeavesHalt :
    haltedState.halt = true ∧ (∃ t, step (asked .clearDirty (haltedState.setDisplay blankFrame)) = .next t ∧ t.dirty ≠ true) ∧
    ∀ legacy, (asked .clearDirty (haltedState.setDisplay blankFrame)).nextOp ≠ .reset legacy :=
  ⟨by decide, ⟨_, step_after (by decide), by decide⟩, by decide⟩

theorem witness_LoadWindowBits :
    State.reset.halt = false ∧ (∃ t, step (asked (.load [0x12#8]) State.reset) = .next t ∧ t.loaded = true) ∧
    (∀ legacy, (asked (.load [0x12#8]) State.reset).nextOp ≠ .reset legacy) ∧
    (∃ t, step (placed 0x1200 State.reset) = .next t ∧ t.started = true) ∧
    ∀ legacy, (placed 0x1200 State.reset).nextOp ≠ .reset legacy :=
  ⟨by decide, ⟨_, step_after (by decide), by decide⟩, by decide, ⟨_, step_after (by decide), by decide⟩, by decide⟩

/-- A ROM one byte or more too long, loaded right after reset. -/
theorem load_too_large {rom : List Byte} (h : 3584 < rom.length) :
    ∃ t, step (asked (.load rom) State.reset) = .next t ∧ t.halt = true :=
  ⟨(asked (.load rom) State.reset).takeOp.raise .romTooLarge 0x0000#16 0x0000#16, congrArg Host.Outcome.next (if_pos h), rfl⟩

/-- The four error conditions, each from a state that is not halted. -/
theorem witness_ExactlyFourErrorConditions :
    (∃ t, step (asked (.load (List.replicate 3585 0xAB#8)) State.reset) = .next t ∧ t.halt = true) ∧
    (Executes (placed 0x2300 (stacked 16)) (.call 0x300#12) ∧ (stacked 16).sp.val = 16 ∧
      ∃ t, step (placed 0x2300 (stacked 16)) = .next t ∧ t.halt = true) ∧
    (Executes (placed 0x00EE State.reset) .ret ∧ State.reset.sp.val = 0 ∧
      ∃ t, step (placed 0x00EE State.reset) = .next t ∧ t.halt = true) ∧
    (legalWord ((placed 0x5121 State.reset).fetch (placed 0x5121 State.reset).pc) = false ∧
      ∃ t, step (placed 0x5121 State.reset) = .next t ∧ t.halt = true) :=
  ⟨load_too_large (by rw [List.length_replicate]; decide),
    ⟨executes_placed _ (by decide), by decide, _, step_after (by decide), by decide⟩,
    ⟨executes_placed _ (by decide), by decide, _, step_after (by decide), by decide⟩,
    by decide, _, step_after (by decide), by decide⟩

theorem witness_ErrorsArePrecise :
    (placed 0x2300 (stacked 16)).halt = false ∧
    ∃ t, step (placed 0x2300 (stacked 16)) = .next t ∧ t.halt = true ∧ t.started ≠ (stacked 16).started :=
  ⟨by decide, _, step_after (by decide), by decide, by decide⟩

/-- A covered pixel that is on, a covered pixel that is off and an uncovered pixel, under glyph "0" at the origin. -/
theorem witness_DrawFlipsCoveredPixels :
    let s := State.reset.setDisplay (flipPixel blankFrame 0 0)
    (SpriteCovers s 0 1 5 0 0 ∧ pixelAt s.fb 0 0 = true) ∧ (SpriteCovers s 0 1 5 3 4 ∧ pixelAt s.fb 3 4 = false) ∧
    ¬∃ px py, SpriteCovers State.reset 0 1 0 px py ∧ pixelAt State.reset.fb px py = true :=
  ⟨⟨⟨0, 0, by decide, by decide, by decide, by decide, by decide⟩, by decide⟩,
    ⟨⟨4, 3, by decide, by decide, by decide, by decide, by decide⟩, by decide⟩,
    fun ⟨_, _, ⟨_, _, h, _⟩, _⟩ => absurd h (Nat.not_lt_zero _)⟩

/-- The first draw of glyph "0" on a blank screen, and a second one right after it. -/
theorem witness_DrawTwiceRestoresFrame :
    (0 : Reg) ≠ 0xF ∧ (1 : Reg) ≠ 0xF ∧ (∀ px py, pixelAt State.reset.fb px py = false) ∧
    (∃ px py, SpriteCovers State.reset 0 1 5 px py) ∧
    ∃ t, exec (.drw 0 1 5) State.reset = .next t ∧ pixelAt State.reset.fb 0 0 = false ∧ pixelAt t.fb 0 0 = true :=
  ⟨by decide, by decide, by decide, ⟨0, 0, 0, 0, by decide, by decide, by decide, by decide, by decide⟩,
    _, rfl, by decide, by decide⟩

/-- The three clauses. -/
theorem witness_OnlyClearAndDrawChangeDisplay :
    (∃ t, step (placed 0x00E0 onePixel) = .next t ∧ t.fb ≠ onePixel.fb) ∧
    (∃ t, step (asked .clearDirty onePixel) = .next t ∧ onePixel.dirty = true ∧ t.dirty = false) ∧
    (Executes (placed 0x00E0 onePixel) .cls ∧ Executes (placed 0xD015 onePixel) (.drw 0 1 5)) :=
  ⟨⟨_, step_after (by decide), by decide⟩, ⟨_, step_after (by decide), by decide, by decide⟩,
    executes_placed _ (by decide), executes_placed _ (by decide)⟩

theorem witness_ReturnPopsOrRaisesUnderflow : 0 < (stacked 1).sp.val ∧ 0 < (stacked 16).sp.val ∧ State.reset.sp.val = 0 := by
  decide

theorem witness_CallPushesOrRaisesOverflow : State.reset.sp.val < 16 ∧ (stacked 15).sp.val < 16 ∧ (stacked 16).sp.val = 16 := by
  decide

/-- The state of the return: the one the call left. -/
theorem witness_ReturnAfterCallRestoresPc :
    (stacked 15).sp.val < 16 ∧ ∃ t, exec (.call 0x300#12) (stacked 15) = .next t ∧ t.sp.val = 16 :=
  ⟨by decide, _, rfl, by decide⟩

theorem witness_ImmediateSkipsCompare :
    (State.reset.setV 3 0x42#8).v[(3 : Reg)].toNat = (0x42#8).toNat ∧ State.reset.v[(3 : Reg)].toNat ≠ (0x42#8).toNat := by decide

theorem witness_RegisterSkipsCompare :
    State.reset.v[(1 : Reg)].toNat = State.reset.v[(2 : Reg)].toNat ∧
    (State.reset.setV 1 0x07#8).v[(1 : Reg)].toNat ≠ (State.reset.setV 1 0x07#8).v[(2 : Reg)].toNat := by decide

/-- Both modes; in modern mode the highest address. -/
theorem witness_JumpWithOffsetAddsRegister :
    legacyReset.legacy = true ∧ State.reset.legacy = false ∧ (0xFFF#12).toNat = (0xF : Reg).val * 256 + (0xFF#8).toNat := by decide

theorem witness_OnlyCallAndReturnTouchStack :
    ∃ t, step (placed 0x2300 State.reset) = .next t ∧ (t.stack ≠ State.reset.stack ∨ t.sp ≠ State.reset.sp) :=
  ⟨_, step_after (by decide), by decide⟩

theorem witness_AddSetsCarry : (1 : Reg) ≠ 0xF ∧ (0xE : Reg) ≠ 0xF := by decide

theorem witness_SubtractSetsNotBorrow : (1 : Reg) ≠ 0xF ∧ (0xE : Reg) ≠ 0xF := by decide

/-- Both modes. -/
theorem witness_ShiftsPutOutgoingBitInFlag :
    ((legacyReset.legacy = true → 0 = legacyReset.v[(2 : Reg)].toNat) ∧
      (legacyReset.legacy = false → 0 = legacyReset.v[(1 : Reg)].toNat)) ∧
    ((State.reset.legacy = true → 5 = (State.reset.setV 1 0x05#8).v[(2 : Reg)].toNat) ∧
      (State.reset.legacy = false → 5 = (State.reset.setV 1 0x05#8).v[(1 : Reg)].toNat)) ∧ (1 : Reg) ≠ 0xF := by decide

theorem witness_OnlyFlagInstructionsWriteVfUnnamed :
    (∃ t, exec (.ldImm 3 0x42#8) State.reset = .next t ∧ t.v[(3 : Reg)] ≠ State.reset.v[(3 : Reg)]) ∧
    ∃ t, exec (.subReg 1 2) State.reset = .next t ∧ t.v[(0xF : Reg)] ≠ State.reset.v[(0xF : Reg)] :=
  ⟨⟨_, rfl, by decide⟩, _, rfl, by decide⟩

theorem witness_RangeStoreWritesRegisters : (0 : Reg) ≤ 0xF ∧ (0xF : Reg) ≤ 0xF ∧ legacyReset.legacy = true := by decide

theorem witness_RangeLoadReadsRegisters : (0 : Reg) ≤ 0 ∧ (0xF : Reg) ≤ 0xF ∧ legacyReset.legacy = true := by decide

theorem witness_OnlyIndexInstructionsWriteIndex :
    (∃ t, step (placed 0xA204 State.reset) = .next t ∧ t.i ≠ State.reset.i) ∧
    ∃ t, step (placed 0xF055 legacyReset) = .next t ∧ t.i ≠ legacyReset.i :=
  ⟨⟨_, step_after (by decide), by decide⟩, _, step_after (by decide), by decide⟩

theorem witness_OnlyStoresAndLoadWriteMemory :
    ∃ t, step (placed 0xF033 State.reset) = .next t ∧ t.readByte 0 ≠ (placed 0xF033 State.reset).readByte 0 :=
  ⟨_, step_after (by decide), by decide⟩

/-- Clause by clause: key 15 pressed, key 15 not pressed, and a value that names no key. -/
theorem witness_KeySkipsTestPressedKey :
    let s := withV [(1, 0x0F#8), (2, 0x10#8)] { State.reset with keys := 0x8000#16 }
    (s.v[(1 : Reg)].toNat < 16 ∧ s.keys.getLsbD s.v[(1 : Reg)].toNat = true) ∧
    ¬(s.v[(2 : Reg)].toNat < 16 ∧ s.keys.getLsbD s.v[(2 : Reg)].toNat = true) ∧
    ¬(State.reset.v[(1 : Reg)].toNat < 16 ∧ State.reset.keys.getLsbD State.reset.v[(1 : Reg)].toNat = true) := by decide

theorem witness_KeyWaitStoresLowestKeyOrBlocks :
    ({ State.reset with keys := 0x8000#16 } : State).keys ≠ 0#16 ∧ State.reset.keys = 0#16 := by decide

theorem witness_StepsDoNotCountTimers :
    (placed 0xF215 (State.reset.setV 2 0x05#8)).nextOp = .step 0x0000#16 0x00#8 ∧
    (∃ t, step (placed 0xF215 (State.reset.setV 2 0x05#8)) = .next t ∧ t.dt ≠ State.reset.dt) ∧
    ∃ t, step (placed 0xF218 (State.reset.setV 2 0x05#8)) = .next t ∧ t.st ≠ State.reset.st :=
  ⟨by decide, ⟨_, step_after (by decide), by decide⟩, _, step_after (by decide), by decide⟩

/-- Each clause: a reset, another operation, and an instruction outside the five. -/
theorem witness_LegacyIsLoadedByResetAndReadByFive :
    ((∃ t, step (asked (.reset true) State.reset) = .next t ∧ t.legacy ≠ State.reset.legacy) ∧
      (asked (.reset true) State.reset).nextOp = .reset true) ∧
    ((∃ t, step (placed 0x8126 legacyReset) = .next t) ∧ ∀ legacy, (placed 0x8126 legacyReset).nextOp ≠ .reset legacy) ∧
    (readsLegacy (.addReg 1 2) = false ∧ ∃ t, exec (.addReg 1 2) State.reset = .next t) :=
  ⟨⟨⟨_, step_after (by decide), by decide⟩, rfl⟩, ⟨⟨_, step_after (by decide)⟩, by decide⟩, by decide, _, rfl⟩

theorem witness_ParametersNeverChange : ∃ t, step (asked (.reset true) haltedState) = .next t := ⟨_, step_after (by decide)⟩

theorem witness_OnlyKeyInstructionsReadKeys :
    readsKeys (.rnd 1 0xFF#8) = false ∧ ∃ t, exec (.rnd 1 0xFF#8) State.reset = .next t := ⟨by decide, _, rfl⟩

theorem witness_OnlyRandomReadsRnd :
    (∀ x nn, Instr.drw 0 1 5 ≠ .rnd x nn) ∧ ∃ t, exec (.drw 0 1 5) State.reset = .next t :=
  ⟨fun _ _ h => Instr.noConfusion h, _, rfl⟩

theorem witness_NoInstructionReadsSoundTimer :
    (∃ t, exec (.ldDtVx 1) State.reset = .next t) ∧ (∀ x, Instr.ldDtVx 1 ≠ .ldStVx x) ∧
    (∃ t, exec (.ldStVx 1) State.reset = .next t) ∧ ∃ x, Instr.ldStVx 1 = .ldStVx x :=
  ⟨⟨_, rfl⟩, fun _ h => Instr.noConfusion h, ⟨_, rfl⟩, _, rfl⟩

end Sys2Proof.Tests
end

/-! SUPPORT. What each instruction may write, said once: `exec` always answers a next state, and that state has the
frame `instrWrites`. The frame is built up along the operations a meaning is composed of. -/

namespace Sys2Proof.Machine

/-! ### The register ranges of FX55 and FX65 (R98, R99) -/

theorem State.loadRange_get (s : State) (x r : Reg) :
    (s.loadRange x).v[r] = if r ≤ x then s.readByte (s.effAddr r) else s.v[r] := by
  simp only [State.loadRange_v, Fin.getElem_fin, Vector.getElem_ofFn]

theorem State.indexAfterRange_modern {s : State} (h : s.legacy = false) (x : Reg) : s.indexAfterRange x = s.i := by
  simp [State.indexAfterRange, h]

@[simp] theorem State.regRange_length (s : State) (x : Reg) : (s.regRange x).length = x.val + 1 := by
  simp [State.regRange]

/-! ### A frame grows along the named operations -/

theorem Frame.refl (w : Writes) (s : State) : Frame w s s where
  regs _ _ := rfl
  index _ := rfl
  mem _ _ := rfl
  stack _ := ⟨rfl, rfl⟩
  delay _ := rfl
  sound _ := rfl
  display _ := ⟨rfl, rfl⟩
  halt _ := ⟨rfl, rfl, rfl, rfl⟩
  toneOff := rfl
  legacy := rfl
  window := ⟨rfl, rfl⟩
  params := ⟨rfl, rfl⟩
  host := ⟨rfl, rfl, rfl, rfl⟩

section
variable {w : Writes} {s t : State}

theorem Frame.setPc (h : Frame w s t) (pc : Word) : Frame w s (t.setPc pc) := { h with }

theorem Frame.finish (h : Frame w s t) (r : OpResult) : Frame w s (t.finish r) := { h with }

theorem Frame.withRegs (h : Frame w s t) {v : Vector Byte 16} (hv : ∀ r : Reg, r ∉ w.regs → v[r] = s.v[r]) :
    Frame w s { t with v := v } :=
  { h with regs := hv }

theorem Frame.setV (h : Frame w s t) {x : Reg} (hx : x ∈ w.regs) (b : Byte) : Frame w s (t.setV x b) :=
  h.withRegs fun r hr => by
    have hne : x ≠ r := fun e => hr (e ▸ hx)
    exact (t.setV_get x r b).trans ((if_neg hne).trans (h.regs r hr))

theorem Frame.loadRange (h : Frame w s t) {x : Reg} (hx : ∀ r ≤ x, r ∈ w.regs) : Frame w s (t.loadRange x) :=
  h.withRegs fun r hr => by
    have hgt : ¬ r ≤ x := fun e => hr (hx r e)
    exact (t.loadRange_get x r).trans ((if_neg hgt).trans (h.regs r hr))

/-- Writing `I` with its old value stays in a frame that does not list it: FX55 and FX65 do so in modern mode. -/
theorem Frame.setIndex (h : Frame w s t) {i : Word} (hi : w.index = false → i = s.i) : Frame w s (t.setIndex i) :=
  { h with index := hi }

theorem Frame.setStack (h : Frame w s t) (hw : w.stack = true) (st : Vector Word 16) (d : Fin 17) :
    Frame w s (t.setStack st d) :=
  { h with stack := by simp [hw] }

theorem Frame.setDelay (h : Frame w s t) (hw : w.delay = true) (b : Byte) : Frame w s (t.setDelay b) :=
  { h with delay := by simp [hw] }

theorem Frame.setSound (h : Frame w s t) (hw : w.sound = true) (b : Byte) : Frame w s (t.setSound b) :=
  { h with sound := by simp [hw] }

theorem Frame.setDisplay (h : Frame w s t) (hw : w.display = true) (fb : Framebuffer) : Frame w s (t.setDisplay fb) :=
  { h with display := by simp [hw] }

theorem Frame.raise (h : Frame w s t) (hw : w.halt = true) (e : ErrorKind) (word addr : Word) :
    Frame w s (t.raise e word addr) :=
  { h with halt := by simp [hw] }

theorem Frame.writeBytes (h : Frame w s t) {a : Nat} {bs : List Byte} (hw : w.store = (a, bs.length)) :
    Frame w s (t.writeBytes a bs) := by
  have hmem : ∀ a', (∀ k, k < w.store.2 → maskAddr a' ≠ maskAddr (w.store.1 + k)) →
      (t.writeBytes a bs).readByte a' = s.readByte a' := by
    intro a' ha'
    rw [State.readByte_writeBytes_outside bs t a a' (by simpa [hw] using ha'), h.mem a' ha']
  rw [State.writeBytes_eq] at hmem ⊢
  exact { h with mem := hmem }

end

theorem Frame.advance (w : Writes) (s : State) : Frame w s s.advance := (Frame.refl w s).setPc _

/-! ### What an instruction writes -/

/-- What instruction `i` may write in state `s`. 00EE and 2NNN write the stack, or the halt record at a depth where they
raise; FX0A writes nothing when it blocks. -/
def instrWrites (i : Instr) (s : State) : Writes :=
  match i with
  | .cls => { display := true }
  | .ret => if s.sp.val = 0 then { halt := true } else { stack := true }
  | .call _ => if s.sp.val = 16 then { halt := true } else { stack := true }
  | .jp _ | .jpOffset _ | .seImm _ _ | .sneImm _ _ | .seReg _ _ | .sneReg _ _ | .skp _ | .sknp _ => {}
  | .ldImm x _ | .addImm x _ | .ldReg x _ | .orReg x _ | .andReg x _ | .xorReg x _ | .rnd x _ | .ldVxDt x =>
    { regs := [x] }
  | .addReg x _ | .subReg x _ | .shr x _ | .subnReg x _ | .shl x _ => { regs := [x, flagReg] }
  | .drw _ _ _ => { regs := [flagReg], display := true }
  | .ldVxK x => if s.keys = 0#16 then {} else { regs := [x] }
  | .ldDtVx _ => { delay := true }
  | .ldStVx _ => { sound := true }
  | .ldI _ | .addI _ | .ldF _ => { index := true }
  | .ldB _ => { store := (s.effAddr 0, 3) }
  | .ldMemVx x => { index := s.legacy, store := (s.effAddr 0, x.val + 1) }
  | .ldVxMem x => { regs := (List.finRange 16).filter (· ≤ x), index := s.legacy }

/-- The outcome is a next state, and that state has the frame `w`. -/
def NextFramed (w : Writes) (s : State) (o : StepOutcome) : Prop := ∃ t, o = .next t ∧ Frame w s t

theorem NextFramed.of_next {w : Writes} {s t : State} (h : Frame w s t) : NextFramed w s (.next t) := ⟨t, rfl, h⟩

theorem NextFramed.complete {w : Writes} {s t : State} (h : Frame w s t) : NextFramed w s (complete t) :=
  .of_next (h.finish _)

/-! ### The shapes that several instructions share -/

theorem jump_framed (s : State) (pc : Word) : NextFramed {} s (complete (s.advance.setPc pc)) :=
  .complete ((Frame.advance _ s).setPc pc)

theorem setV_framed (s : State) (x : Reg) (b : Byte) : NextFramed { regs := [x] } s (complete (s.advance.setV x b)) :=
  .complete ((Frame.advance _ s).setV List.mem_cons_self b)

theorem setVWithFlag_framed (s : State) (x : Reg) (b f : Byte) :
    NextFramed { regs := [x, flagReg] } s (complete (s.advance.setVWithFlag x b f)) :=
  .complete (((Frame.advance _ s).setV (by simp) b).setV (by simp) f)

theorem setIndex_framed (s : State) (i : Word) : NextFramed { index := true } s (complete (s.advance.setIndex i)) :=
  .complete ((Frame.advance _ s).setIndex (by simp))

/-! ### The instructions with two ends -/

theorem execRet_framed (s : State) : NextFramed (instrWrites .ret s) s (execRet s) := by
  rcases s.advance.pop_cases with ⟨h0, hpop⟩ | ⟨hpos, hpop⟩
  · have hw : instrWrites .ret s = { halt := true } := if_pos h0
    rw [hw, execRet, hpop]
    exact .of_next ((Frame.refl _ s).raise rfl _ _ _)
  · have hw : instrWrites .ret s = { stack := true } := if_neg (Nat.pos_iff_ne_zero.1 hpos)
    rw [hw, execRet, hpop]
    exact .complete (((Frame.advance _ s).setStack rfl _ _).setPc _)

theorem execCall_framed (nnn : Addr12) (s : State) :
    NextFramed (instrWrites (.call nnn) s) s (execCall nnn s) := by
  rcases s.advance.push_cases s.advance.pc with ⟨h16, hpush⟩ | ⟨hlt, hpush⟩
  · have hw : instrWrites (.call nnn) s = { halt := true } := if_pos h16
    rw [hw, execCall, hpush]
    exact .of_next ((Frame.refl _ s).raise rfl _ _ _)
  · have hw : instrWrites (.call nnn) s = { stack := true } := if_neg (Nat.ne_of_lt hlt)
    rw [hw, execCall, hpush]
    exact .complete (((Frame.advance _ s).setStack rfl _ _).setPc _)

theorem execLdVxK_framed (x : Reg) (s : State) : NextFramed (instrWrites (.ldVxK x) s) s (execLdVxK x s) := by
  cases hk : lowestKey s.keys with
  | none =>
    have hw : instrWrites (.ldVxK x) s = {} := if_pos ((lowestKey_none_iff s.keys).1 hk)
    rw [hw, execLdVxK, hk]
    exact .of_next ((Frame.refl _ s).finish _)
  | some k =>
    have hkeys : s.keys ≠ 0#16 := fun h => by simp [(lowestKey_none_iff s.keys).2 h] at hk
    have hw : instrWrites (.ldVxK x) s = { regs := [x] } := if_neg hkeys
    rw [hw, execLdVxK, hk]
    exact setV_framed s x _

/-! ### Every instruction -/

/-- Every instruction has a next state, and writes there only what `instrWrites` lists. -/
theorem exec_framed (i : Instr) (s : State) : NextFramed (instrWrites i s) s (exec i s) := by
  cases i with
  | cls => exact .complete ((Frame.advance _ s).setDisplay rfl _)
  | drw x y n => exact .complete (((Frame.advance _ s).setDisplay rfl _).setV List.mem_cons_self _)
  | ret => exact execRet_framed s
  | call nnn => exact execCall_framed nnn s
  | jp | jpOffset | seImm | sneImm | seReg | sneReg | skp | sknp => exact jump_framed s _
  | ldImm | addImm | ldReg | orReg | andReg | xorReg | rnd | ldVxDt => exact setV_framed s _ _
  | addReg | subReg | shr | subnReg | shl => exact setVWithFlag_framed s _ _ _
  | ldI | addI | ldF => exact setIndex_framed s _
  | ldVxK x => exact execLdVxK_framed x s
  | ldDtVx x => exact .complete ((Frame.advance _ s).setDelay rfl _)
  | ldStVx x => exact .complete ((Frame.advance _ s).setSound rfl _)
  | ldB x => exact .complete ((Frame.advance _ s).writeBytes rfl)
  | ldMemVx x =>
    refine .complete (((Frame.advance _ s).writeBytes ?_).setIndex fun h => State.indexAfterRange_modern h x)
    simp [instrWrites]
  | ldVxMem x =>
    refine .complete (((Frame.advance _ s).loadRange fun r hr => ?_).setIndex fun h => State.indexAfterRange_modern h x)
    simp [instrWrites, hr]

/-- What an instruction leaves unchanged: everything `instrWrites` does not list. -/
theorem exec_frame {i : Instr} {s t : State} (h : exec i s = .next t) : Frame (instrWrites i s) s t := by
  obtain ⟨u, hu, hf⟩ := exec_framed i s
  obtain rfl : u = t := by simpa [hu] using h
  exact hf

/-! ### The parameters (R7) -/

/-- A `STEP` keeps the parameters: no instruction's frame lets go of them. -/
theorem stepOp_keeps_params {keys : Word} {rnd : Byte} {s t : State} (h : stepOp keys rnd s = .next t) :
    t.drawEdge = s.drawEdge ∧ t.fontset = s.fontset := by
  rcases stepOp_cases keys rnd s with ⟨-, he⟩ | ⟨-, i, -, he⟩ | ⟨-, -, he⟩ <;> rw [he] at h
  · cases h; simp
  · exact (exec_frame h).params
  · cases h; simp

/-- What `LOAD` can do (R123): copy the ROM, raise `RomTooLarge`, or be refused outside its window. -/
theorem loadOp_cases (rom : List Byte) (s : State) :
    (s.loadWindow = true ∧ rom.length ≤ 3584 ∧
      loadOp rom s = .next ((s.writeBytes 0x200 rom).setLoaded.finish .ok)) ∨
    (s.loadWindow = true ∧ 3584 < rom.length ∧ loadOp rom s = .next (s.raise .romTooLarge 0x0000#16 0x0000#16)) ∨
    (s.loadWindow = false ∧ loadOp rom s = .refused .loadOutsideWindow) := by
  cases hw : s.loadWindow with
  | false => exact .inr (.inr ⟨rfl, by simp [loadOp, hw]⟩)
  | true =>
    by_cases hl : 3584 < rom.length
    · exact .inr (.inl ⟨rfl, hl, by simp [loadOp, hw, hl]⟩)
    · exact .inl ⟨rfl, Nat.le_of_not_lt hl, by simp [loadOp, hw, hl]⟩

theorem loadOp_keeps_params {rom : List Byte} {s t : State} (h : loadOp rom s = .next t) :
    t.drawEdge = s.drawEdge ∧ t.fontset = s.fontset := by
  rcases loadOp_cases rom s with ⟨-, -, he⟩ | ⟨-, -, he⟩ | ⟨-, he⟩ <;> rw [he] at h
  · cases h; simp
  · cases h; simp
  · cases h

theorem tickOp_keeps_params (s : State) : (tickOp s).drawEdge = s.drawEdge ∧ (tickOp s).fontset = s.fontset := by
  unfold tickOp
  split <;> simp

/-- Settles O55, by the operation the step invokes: an instruction's frame keeps the parameters, and no other operation writes
them. `RESET` builds its state from them (log entry 3). -/
theorem parametersNeverChange : Obligations.ParametersNeverChange := by
  intro s t h
  rcases step_cases s with
    ⟨keys, rnd, -, he⟩ | ⟨-, he⟩ | ⟨-, he⟩ | ⟨-, he⟩ | ⟨rom, -, he⟩ | ⟨legacy, -, he⟩ <;> rw [he] at h
  · exact stepOp_keeps_params (s := s.takeOp) h
  · obtain rfl := Host.Outcome.next.inj h
    exact tickOp_keeps_params s.takeOp
  · obtain rfl := Host.Outcome.next.inj h
    exact ⟨rfl, rfl⟩
  · obtain rfl := Host.Outcome.next.inj h
    exact ⟨rfl, rfl⟩
  · exact loadOp_keeps_params (s := s.takeOp) h
  · obtain rfl := Host.Outcome.next.inj h
    exact ⟨rfl, rfl⟩

end Sys2Proof.Machine

/-! SUPPORT. What the decoder's answer says of the word: the word is the encoding of the instruction it decodes to, and a word
that does not decode is on R63's list. -/

namespace Sys2Proof

/-! ### A word from its fields, when its fixed bits are known -/

section
variable {w : Word} {op : BitVec 4}

theorem wordNNN_of_fixed (hop : (opField w).toNat = op.toNat) : wordNNN op (nnnField w) = w := by
  rw [← BitVec.eq_of_toNat_eq hop, wordNNN_fields]

theorem wordXNN_of_fixed {nn : Byte} (hop : (opField w).toNat = op.toNat) (hnn : (nnField w).toNat = nn.toNat) :
    wordXNN op (xField w) nn = w := by
  rw [← BitVec.eq_of_toNat_eq hop, ← BitVec.eq_of_toNat_eq hnn, wordXNN_fields]

theorem wordXYN_of_fixed {n : Fin 16} (hop : (opField w).toNat = op.toNat) (hn : (nField w).val = n.val) :
    wordXYN op (xField w) (yField w) n = w := by
  rw [← BitVec.eq_of_toNat_eq hop, ← Fin.ext hn, wordXYN_fields]

end

/-! ### A word that decodes -/

section
variable {w : Word} {i : Instr}

theorem encode_of_decodeFamily0 (h : decodeFamily0 w = .ok i) : encode i = w := by
  unfold decodeFamily0 at h
  split at h
  · next hw => cases h; exact hw.symm
  · split at h
    · next hw => cases h; exact hw.symm
    · cases h

theorem encode_of_decodeFamily5 (hop : (opField w).toNat = 0x5) (h : decodeFamily5 w = .ok i) : encode i = w := by
  unfold decodeFamily5 at h
  split at h
  · next hn => cases h; exact wordXYN_of_fixed hop (congrArg Fin.val hn)
  · cases h

theorem encode_of_decodeFamily8 (hop : (opField w).toNat = 0x8) (h : decodeFamily8 w = .ok i) : encode i = w := by
  unfold decodeFamily8 at h
  split at h <;> cases h <;> next hn => exact wordXYN_of_fixed hop hn

theorem encode_of_decodeFamily9 (hop : (opField w).toNat = 0x9) (h : decodeFamily9 w = .ok i) : encode i = w := by
  unfold decodeFamily9 at h
  split at h
  · next hn => cases h; exact wordXYN_of_fixed hop (congrArg Fin.val hn)
  · cases h

theorem encode_of_decodeFamilyE (hop : (opField w).toNat = 0xE) (h : decodeFamilyE w = .ok i) : encode i = w := by
  unfold decodeFamilyE at h
  split at h <;> cases h <;> next hnn => exact wordXNN_of_fixed hop hnn

theorem encode_of_decodeFamilyF (hop : (opField w).toNat = 0xF) (h : decodeFamilyF w = .ok i) : encode i = w := by
  unfold decodeFamilyF at h
  split at h <;> cases h <;> next hnn => exact wordXNN_of_fixed hop hnn

/-- A word that decodes is the encoding of its instruction: no bit of a legal word is ignored (R55 to R62). -/
theorem encode_of_decode (h : decode w = .ok i) : encode i = w := by
  unfold decode at h
  split at h
  case h_1 => exact encode_of_decodeFamily0 h
  case h_6 hop => exact encode_of_decodeFamily5 hop h
  case h_9 hop => exact encode_of_decodeFamily8 hop h
  case h_10 hop => exact encode_of_decodeFamily9 hop h
  case h_15 hop => exact encode_of_decodeFamilyE hop h
  case h_16 hop => exact encode_of_decodeFamilyF hop h
  case h_17 => cases h
  case h_2 hop | h_3 hop | h_11 hop | h_12 hop => cases h; exact wordNNN_of_fixed hop
  case h_14 hop => cases h; exact wordXYN_of_fixed hop rfl
  case h_4 hop | h_5 hop | h_7 hop | h_8 hop | h_13 hop => cases h; exact wordXNN_of_fixed hop rfl

end

/-! ### A word that does not decode -/

/-- A word is illegal when one of R63's rows lists it. -/
theorem legalWord_eq_false_iff (w : Word) : legalWord w = false ↔
    illegalFamily0 w = true ∨ illegalFamily5or9 w = true ∨ illegalFamily8 w = true ∨ illegalFamilyE w = true ∨
      illegalFamilyF w = true := by
  simp only [legalWord, Bool.not_eq_false', Bool.or_eq_true, or_assoc]

section
variable {w : Word} {e : DecodeError}

theorem illegalFamily0_of_error (hop : (opField w).toNat = 0x0) (h : decodeFamily0 w = .error e) :
    illegalFamily0 w = true := by
  rw [opField_toNat] at hop
  unfold decodeFamily0 at h
  split at h
  · cases h
  · split at h
    · cases h
    · next hcls hret =>
      have hle : w.toNat ≤ 0x0FFF := by omega
      simp [illegalFamily0, hcls, hret, hle]

theorem illegalFamily5_of_error (hop : (opField w).toNat = 0x5) (h : decodeFamily5 w = .error e) :
    illegalFamily5or9 w = true := by
  rw [opField_toNat] at hop
  unfold decodeFamily5 at h
  split at h
  · cases h
  · next hn => simpa [illegalFamily5or9, hop, Fin.ext_iff, nField_val] using hn

theorem illegalFamily9_of_error (hop : (opField w).toNat = 0x9) (h : decodeFamily9 w = .error e) :
    illegalFamily5or9 w = true := by
  rw [opField_toNat] at hop
  unfold decodeFamily9 at h
  split at h
  · cases h
  · next hn => simpa [illegalFamily5or9, hop, Fin.ext_iff, nField_val] using hn

theorem illegalFamily8_of_error (hop : (opField w).toNat = 0x8) (h : decodeFamily8 w = .error e) :
    illegalFamily8 w = true := by
  rw [opField_toNat] at hop
  unfold decodeFamily8 at h
  split at h
  case h_10 =>
    simp only [nField_val, imp_false] at *
    have hn : w.toNat % 0x10 = 0x8 ∨ w.toNat % 0x10 = 0x9 ∨ w.toNat % 0x10 = 0xA ∨ w.toNat % 0x10 = 0xB ∨
        w.toNat % 0x10 = 0xC ∨ w.toNat % 0x10 = 0xD ∨ w.toNat % 0x10 = 0xF := by omega
    simpa [illegalFamily8, hop] using hn
  all_goals cases h

theorem illegalFamilyE_of_error (hop : (opField w).toNat = 0xE) (h : decodeFamilyE w = .error e) :
    illegalFamilyE w = true := by
  rw [opField_toNat] at hop
  unfold decodeFamilyE at h
  split at h
  case h_3 =>
    simp only [imp_false] at *
    simp [illegalFamilyE, ← nnField_toNat, *]
  all_goals cases h

theorem illegalFamilyF_of_error (hop : (opField w).toNat = 0xF) (h : decodeFamilyF w = .error e) :
    illegalFamilyF w = true := by
  rw [opField_toNat] at hop
  unfold decodeFamilyF at h
  split at h
  case h_10 =>
    simp only [imp_false] at *
    simp [illegalFamilyF, ← nnField_toNat, *]
  all_goals cases h

/-- A word that does not decode is illegal (R63). -/
theorem legalWord_of_decode_error (h : decode w = .error e) : legalWord w = false := by
  rw [legalWord_eq_false_iff]
  unfold decode at h
  split at h
  case h_1 hop => exact .inl (illegalFamily0_of_error hop h)
  case h_6 hop => exact .inr (.inl (illegalFamily5_of_error hop h))
  case h_9 hop => exact .inr (.inr (.inl (illegalFamily8_of_error hop h)))
  case h_10 hop => exact .inr (.inl (illegalFamily9_of_error hop h))
  case h_15 hop => exact .inr (.inr (.inr (.inl (illegalFamilyE_of_error hop h))))
  case h_16 hop => exact .inr (.inr (.inr (.inr (illegalFamilyF_of_error hop h))))
  case h_17 =>
    have := (opField w).isLt
    simp only [imp_false] at *
    omega
  all_goals cases h

end

end Sys2Proof

/-! SUPPORT. How an instruction ends, and the nine ways a step can answer a next state. -/

namespace Sys2Proof.Machine

/-! ### The instructions with two ends, each end as an equation -/

theorem execRet_of_empty {s : State} (h : s.sp.val = 0) :
    execRet s = .next (s.raise .stackUnderflow (encode .ret) s.pc) := by
  rcases s.advance.pop_cases with ⟨-, hpop⟩ | ⟨hpos, -⟩
  · rw [execRet, hpop]; rfl
  · exact absurd h (Nat.ne_of_gt hpos)

theorem execRet_of_pos {s : State} (h : 0 < s.sp.val) :
    execRet s = complete ((s.advance.setStack s.stack ⟨s.sp.val - 1, by omega⟩).setPc s.stack[s.sp.val - 1]) := by
  rcases s.advance.pop_cases with ⟨h0, -⟩ | ⟨_, hpop⟩
  · exact absurd h0 (Nat.ne_of_gt h)
  · rw [execRet, hpop]; rfl

theorem execCall_of_full {s : State} (nnn : Addr12) (h : s.sp.val = 16) :
    execCall nnn s = .next (s.raise .stackOverflow (encode (.call nnn)) s.pc) := by
  rcases s.advance.push_cases s.advance.pc with ⟨-, hpush⟩ | ⟨hlt, -⟩
  · rw [execCall, hpush]; rfl
  · exact absurd h (Nat.ne_of_lt hlt)

theorem execCall_of_lt {s : State} (nnn : Addr12) (h : s.sp.val < 16) :
    execCall nnn s = complete
      ((s.advance.setStack (s.stack.set s.sp.val s.advance.pc) ⟨s.sp.val + 1, by omega⟩).setPc (zext16 nnn)) := by
  rcases s.advance.push_cases s.advance.pc with ⟨h16, -⟩ | ⟨_, hpush⟩
  · exact absurd h16 (Nat.ne_of_lt h)
  · rw [execCall, hpush]; rfl

theorem execLdVxK_of_none {s : State} (x : Reg) (h : lowestKey s.keys = none) :
    execLdVxK x s = .next (s.finish .blocked) := by
  rw [execLdVxK, h]

theorem execLdVxK_of_some {s : State} (x : Reg) {k : Fin 16} (h : lowestKey s.keys = some k) :
    execLdVxK x s = complete (s.advance.setV x (BitVec.ofNat 8 k.val)) := by
  rw [execLdVxK, h]; rfl

theorem State.sp_full_or_lt (s : State) : s.sp.val = 16 ∨ s.sp.val < 16 := by omega

/-! ### How an instruction ends -/

/-- An instruction completes, outside the halt record; or is FX0A and blocks; or is 2NNN at depth 16 or 00EE at depth 0 and
raises from the state it began in. -/
theorem exec_cases (i : Instr) (s : State) :
    ((instrWrites i s).halt = false ∧ ∃ u, exec i s = complete u) ∨
    (s.keys = 0#16 ∧ (∃ x, i = .ldVxK x) ∧ exec i s = .next (s.finish .blocked)) ∨
    (s.sp.val = 16 ∧ (∃ nnn, i = .call nnn) ∧ exec i s = .next (s.raise .stackOverflow (encode i) s.pc)) ∨
    (s.sp.val = 0 ∧ i = .ret ∧ exec i s = .next (s.raise .stackUnderflow (encode i) s.pc)) := by
  cases i with
  | ret =>
    rcases Nat.eq_zero_or_pos s.sp.val with h0 | hpos
    · exact .inr (.inr (.inr ⟨h0, rfl, execRet_of_empty h0⟩))
    · exact .inl ⟨by simp [instrWrites, Nat.ne_of_gt hpos], _, execRet_of_pos hpos⟩
  | call nnn =>
    rcases s.sp_full_or_lt with h16 | hlt
    · exact .inr (.inr (.inl ⟨h16, ⟨nnn, rfl⟩, execCall_of_full nnn h16⟩))
    · exact .inl ⟨by simp [instrWrites, Nat.ne_of_lt hlt], _, execCall_of_lt nnn hlt⟩
  | ldVxK x =>
    cases hk : lowestKey s.keys with
    | none => exact .inr (.inl ⟨(lowestKey_none_iff _).1 hk, ⟨x, rfl⟩, execLdVxK_of_none x hk⟩)
    | some k => exact .inl ⟨by simp only [instrWrites]; split <;> rfl, _, execLdVxK_of_some x hk⟩
  | _ => exact .inl ⟨rfl, _, rfl⟩

/-- Settles O8, by the four ways an instruction ends; its frame keeps `HALT` where it completes. -/
theorem everyInstructionAdvancesBlocksOrHalts : Obligations.EveryInstructionAdvancesBlocksOrHalts := by
  intro i s
  rcases exec_cases i s with ⟨hw, u, he⟩ | ⟨hk, hi, he⟩ | ⟨hsp, hi, he⟩ | ⟨hsp, hi, he⟩
  · exact ⟨_, he, .inl ⟨rfl, ((exec_frame he).halt hw).1⟩⟩
  · exact ⟨_, he, .inr (.inl ⟨rfl, hi, hk, rfl⟩)⟩
  · exact ⟨_, he, .inr (.inr (.inl ⟨rfl, hi, hsp, rfl⟩))⟩
  · exact ⟨_, he, .inr (.inr (.inr ⟨rfl, hi, hsp, rfl⟩))⟩

/-! ### The load window, and which operation can stop (R33, R123) -/

theorem State.loadWindow_eq_true_iff (s : State) :
    s.loadWindow = true ↔ s.halt = false ∧ s.started = false ∧ s.loaded = false := by
  simp [State.loadWindow, and_assoc]

theorem State.loadWindow_eq_false_iff (s : State) :
    s.loadWindow = false ↔ s.halt = true ∨ s.started = true ∨ s.loaded = true := by
  simp only [State.loadWindow, Bool.and_eq_false_iff, Bool.not_eq_false', or_assoc]

/-- `STEP` always has a next state (R114). -/
theorem stepOp_next (keys : Word) (rnd : Byte) (s : State) : ∃ t, stepOp keys rnd s = .next t := by
  rcases stepOp_cases keys rnd s with ⟨-, he⟩ | ⟨-, i, -, he⟩ | ⟨-, -, he⟩
  · exact ⟨_, he⟩
  · obtain ⟨t, ht, -⟩ := exec_framed i (s.beginStep keys rnd)
    exact ⟨t, he.trans ht⟩
  · exact ⟨_, he⟩

/-- Settles O9, by the operation invoked: each answers a next state, but `LOAD` outside its window. -/
theorem onlyLateLoadIsRefused : Obligations.OnlyLateLoadIsRefused := by
  intro s
  rcases step_cases s with
    ⟨keys, rnd, -, he⟩ | ⟨-, he⟩ | ⟨-, he⟩ | ⟨-, he⟩ | ⟨rom, hop, he⟩ | ⟨legacy, -, he⟩
  · rw [he]
    exact .inl (stepOp_next keys rnd s.takeOp)
  · exact .inl ⟨_, he⟩
  · exact .inl ⟨_, he⟩
  · exact .inl ⟨_, he⟩
  · rcases loadOp_cases rom s.takeOp with ⟨-, -, hl⟩ | ⟨-, -, hl⟩ | ⟨hw, hl⟩
    · exact .inl ⟨_, he.trans hl⟩
    · exact .inl ⟨_, he.trans hl⟩
    · exact .inr ⟨rom, hop, s.takeOp.loadWindow_eq_false_iff.1 hw, he.trans hl⟩
  · exact .inl ⟨_, he⟩

/-! ### What a step to a next state was -/

/-- The nine ways a step goes from `s` to a next state: how a `STEP` ends (R52), the other operations (R34), and for `LOAD` both
its ends inside the window (R123). -/
inductive StepTo (s : State) : State → Prop where
  | haltedStep {keys : Word} {rnd : Byte} (hop : s.nextOp = .step keys rnd) (hh : s.halt = true) :
      StepTo s (s.takeOp.finish (.halted s.err))
  | instruction {keys : Word} {rnd : Byte} {i : Instr} {t : State} (hop : s.nextOp = .step keys rnd)
      (hx : Executes s i) (he : exec i (s.takeOp.beginStep keys rnd) = .next t) : StepTo s t
  | illegalWord {keys : Word} {rnd : Byte} (hop : s.nextOp = .step keys rnd) (hh : s.halt = false)
      (hw : legalWord (s.fetch s.pc) = false) :
      StepTo s ((s.takeOp.beginStep keys rnd).raise .unknownInstruction (s.fetch s.pc) s.pc)
  | tick (hop : s.nextOp = .tick) : StepTo s (tickOp s.takeOp)
  | readFb (hop : s.nextOp = .readFb) : StepTo s (readFbOp s.takeOp)
  | clearDirty (hop : s.nextOp = .clearDirty) : StepTo s (clearDirtyOp s.takeOp)
  | load {rom : List Byte} (hop : s.nextOp = .load rom) (hw : s.loadWindow = true) (hl : rom.length ≤ 3584) :
      StepTo s ((s.takeOp.writeBytes 0x200 rom).setLoaded.finish .ok)
  | loadTooLarge {rom : List Byte} (hop : s.nextOp = .load rom) (hw : s.loadWindow = true) (hl : 3584 < rom.length) :
      StepTo s (s.takeOp.raise .romTooLarge 0x0000#16 0x0000#16)
  | reset {legacy : Bool} (hop : s.nextOp = .reset legacy) : StepTo s (resetOp legacy s.takeOp)

/-- The inversion of `step`: a step that answers a next state went one of the nine ways. -/
theorem stepTo_of_step {s t : State} (h : step s = .next t) : StepTo s t := by
  rcases step_cases s with
    ⟨keys, rnd, hop, he⟩ | ⟨hop, he⟩ | ⟨hop, he⟩ | ⟨hop, he⟩ | ⟨rom, hop, he⟩ | ⟨legacy, hop, he⟩ <;>
    rw [he] at h
  · rcases stepOp_cases keys rnd s.takeOp with ⟨hh, he⟩ | ⟨hh, i, hd, he⟩ | ⟨hh, hd, he⟩ <;> rw [he] at h
    · cases h; exact .haltedStep hop hh
    · exact .instruction hop ⟨hh, ⟨keys, rnd, hop⟩, hd⟩ h
    · cases h; exact .illegalWord hop hh (legalWord_of_decode_error hd)
  · cases h; exact .tick hop
  · cases h; exact .readFb hop
  · cases h; exact .clearDirty hop
  · rcases loadOp_cases rom s.takeOp with ⟨hw, hl, he⟩ | ⟨hw, hl, he⟩ | ⟨-, he⟩ <;> rw [he] at h
    · cases h; exact .load hop hw hl
    · cases h; exact .loadTooLarge hop hw hl
    · cases h
  · cases h; exact .reset hop

/-- `TICK` writes the timers, `TONE_OFF` and its report, and nothing else (R115). -/
theorem tickOp_eq (s : State) : tickOp s =
    { s with dt := (tickOp s).dt, st := (tickOp s).st, toneOff := (tickOp s).toneOff, result := (tickOp s).result } := by
  unfold tickOp
  split <;> rfl

/-- `READ_FB` writes its report and nothing else (R28). -/
theorem readFbOp_eq (s : State) : readFbOp s = { s with result := .frame s.fb s.dirty } := rfl

/-- `CLEAR_DIRTY` writes `DIRTY` and its report, and nothing else (R28). -/
theorem clearDirtyOp_eq (s : State) : clearDirtyOp s = { s with dirty := false, result := .nothing } := rfl

/-! ### The invariant is kept (R32, R108, R109) -/

/-- An instruction leaves in memory a run of byte writes at `I`, of no byte at all but for FX33 and FX55 (R40). -/
theorem exec_mem {i : Instr} {s t : State} (h : exec i s = .next t) :
    ∃ bs, t.mem = (s.writeBytes (s.effAddr 0) bs).mem := by
  cases i with
  | ldB x =>
    obtain rfl := Host.Outcome.next.inj h
    refine ⟨bcdDigits s.v[x], ?_⟩
    rw [State.finish_mem]
    exact State.writeBytes_mem_congr (s := s.advance) (t := s) (bcdDigits s.v[x]) rfl rfl (s.effAddr 0)
  | ldMemVx x =>
    obtain rfl := Host.Outcome.next.inj h
    refine ⟨s.regRange x, ?_⟩
    rw [State.finish_mem, State.setIndex_mem]
    exact State.writeBytes_mem_congr (s := s.advance) (t := s) (s.regRange x) rfl rfl (s.effAddr 0)
  | ret =>
    refine ⟨[], ?_⟩
    rcases Nat.eq_zero_or_pos s.sp.val with h0 | hpos
    · cases (execRet_of_empty h0).symm.trans h; rfl
    · cases (execRet_of_pos hpos).symm.trans h; rfl
  | call nnn =>
    refine ⟨[], ?_⟩
    rcases s.sp_full_or_lt with h16 | hlt
    · cases (execCall_of_full nnn h16).symm.trans h; rfl
    · cases (execCall_of_lt nnn hlt).symm.trans h; rfl
  | ldVxK x =>
    refine ⟨[], ?_⟩
    cases hk : lowestKey s.keys with
    | none => cases (execLdVxK_of_none x hk).symm.trans h; rfl
    | some k => cases (execLdVxK_of_some x hk).symm.trans h; rfl
  | ldVxMem x =>
    obtain rfl := Host.Outcome.next.inj h
    exact ⟨[], by simp [State.writeBytes]⟩
  | _ =>
    obtain rfl := Host.Outcome.next.inj h
    exact ⟨[], rfl⟩

/-- Every instruction keeps the canonical form of memory. -/
theorem exec_keeps_wf {i : Instr} {s t : State} (h : exec i s = .next t) (hs : Memory.wf s.fontset s.mem) :
    Memory.wf t.fontset t.mem := by
  obtain ⟨bs, hm⟩ := exec_mem h
  rw [(exec_frame h).params.2, hm]
  exact State.wf_writeBytes bs hs _

theorem State.haltRecordTrue_of_running {s : State} (hh : s.halt = false)
    (hz : s.err = 0#3 ∧ s.errWord = 0#16 ∧ s.errPc = 0#16) : s.haltRecordTrue :=
  ⟨fun _ => hz, fun h => absurd (hh.symm.trans h) (by decide)⟩

/-- An error on the word at `PC` leaves that word, `PC` and `STARTED` as its record names them (R109). -/
theorem State.raise_haltedAtInstruction {s : State} (hs : s.started = true) (e : ErrorKind) {w : Word}
    (hw : s.fetch s.pc = w) : (s.raise e w s.pc).haltedAtInstruction :=
  ⟨hs, rfl, hw⟩

/-- An instruction run on the word at `PC` of a block that is not halted leaves a true halt record: none where it completes or
blocks, and where it raises the row of its error. -/
theorem exec_keeps_haltRecord {i : Instr} {s t : State} (h : exec i s = .next t) (hh : s.halt = false)
    (hz : s.err = 0#3 ∧ s.errWord = 0#16 ∧ s.errPc = 0#16) (hst : s.started = true) (hd : decode (s.fetch s.pc) = .ok i) : t.haltRecordTrue := by
  have hw : s.fetch s.pc = encode i := (encode_of_decode hd).symm
  rcases exec_cases i s with ⟨hhalt, -⟩ | ⟨-, -, he⟩ | ⟨hsp, ⟨nnn, hi⟩, he⟩ | ⟨hsp, hi, he⟩
  · obtain ⟨ht, herr, hword, hpc⟩ := (exec_frame h).halt hhalt
    exact State.haltRecordTrue_of_running (ht.trans hh) (by rw [herr, hword, hpc]; exact hz)
  · cases he.symm.trans h
    exact State.haltRecordTrue_of_running hh hz
  · cases he.symm.trans h
    exact ⟨nofun, fun _ => .inr (.inl ⟨rfl, hsp, ⟨nnn, by rw [← hi, ← hd, hw]; rfl⟩,
      State.raise_haltedAtInstruction hst _ hw⟩)⟩
  · cases he.symm.trans h
    exact ⟨nofun, fun _ => .inr (.inr (.inl ⟨rfl, hsp, by rw [hi]; rfl, State.raise_haltedAtInstruction hst _ hw⟩))⟩

theorem State.resetWith_inv (legacy : Bool) (edge : DrawEdge) (font : Fontset) :
    (State.resetWith legacy edge font).Inv :=
  ⟨Memory.wf_nil font, State.haltRecordTrue_of_running rfl ⟨rfl, rfl, rfl⟩⟩

/-- Settles O14: reset memory lists no cell, and the reset halt record is all zero. -/
theorem invariantHoldsAtReset : Obligations.InvariantHoldsAtReset :=
  ⟨State.resetWith_inv _ _ _, State.resetWith_inv⟩

/-- Settles O13, by the way the step went. An instruction keeps the canonical form by `exec_keeps_wf` and leaves a true record by
`exec_keeps_haltRecord`; the raises write a row of R108; the other operations touch nothing the invariant reads, but `LOAD`'s
byte writes and `RESET`. -/
theorem stepKeepsInvariant : Obligations.StepKeepsInvariant := by
  intro s t hinv h
  obtain ⟨hwf, hrec⟩ := hinv
  cases stepTo_of_step h with
  | haltedStep hop hh => exact ⟨hwf, hrec⟩
  | instruction hop hx he =>
    obtain ⟨hh, -, hd⟩ := hx
    exact ⟨exec_keeps_wf he hwf, exec_keeps_haltRecord he hh (hrec.1 hh) rfl hd⟩
  | illegalWord hop hh hw =>
    exact ⟨hwf, nofun, fun _ => .inr (.inr (.inr ⟨rfl, hw, State.raise_haltedAtInstruction rfl _ rfl⟩))⟩
  | tick hop => rw [tickOp_eq]; exact ⟨hwf, hrec⟩
  | readFb hop => rw [readFbOp_eq]; exact ⟨hwf, hrec⟩
  | clearDirty hop => rw [clearDirtyOp_eq]; exact ⟨hwf, hrec⟩
  | load hop hw hl =>
    obtain ⟨hh, -⟩ := s.loadWindow_eq_true_iff.1 hw
    exact ⟨by simpa using State.wf_writeBytes (s := s.takeOp) _ hwf 0x200,
      State.haltRecordTrue_of_running (by simpa using hh) (by simpa using hrec.1 hh)⟩
  | loadTooLarge hop hw hl =>
    obtain ⟨-, hbits⟩ := s.loadWindow_eq_true_iff.1 hw
    exact ⟨hwf, nofun, fun _ => .inl ⟨rfl, rfl, rfl, hbits⟩⟩
  | @reset legacy hop => exact State.resetWith_inv legacy s.drawEdge s.fontset

end Sys2Proof.Machine

/-! SUPPORT. A canonical memory lists exactly the cells that its reads tell apart from the reset contents, so its reads determine it. -/

namespace Sys2Proof.Machine

/-- An address that memory does not list reads as `RESET` leaves it. -/
theorem Memory.read_of_not_listed {font : Fontset} {m : Memory} {a : Nat} (h : ∀ c ∈ m, c.1 ≠ a) :
    Memory.read font m a = resetByte font a := by
  induction m with
  | nil => rfl
  | cons c m ih =>
    rw [Memory.read, if_neg (h c List.mem_cons_self), ih fun d hd => h d (List.mem_cons_of_mem c hd)]

/-- In a list of rising addresses each cell is what its address reads as. -/
theorem Memory.read_of_mem {font : Fontset} {m : Memory} (hs : m.Pairwise fun c d => c.1 < d.1) {c : Host.Cell}
    (hc : c ∈ m) : Memory.read font m c.1 = c.2 := by
  induction m with
  | nil => cases hc
  | cons d m ih =>
    obtain ⟨hd, hm⟩ := List.pairwise_cons.1 hs
    rcases List.mem_cons.1 hc with rfl | hc
    · rw [Memory.read, if_pos rfl]
    · rw [Memory.read, if_neg (Nat.ne_of_lt (hd c hc)), ih hm hc]

/-- The cells of a canonical memory, by its reads. -/
theorem Memory.mem_iff_read {font : Fontset} {m : Memory} (h : Memory.wf font m) (c : Host.Cell) :
    c ∈ m ↔ c.1 < 4096 ∧ c.2 ≠ resetByte font c.1 ∧ Memory.read font m c.1 = c.2 := by
  obtain ⟨hs, hcell⟩ := h
  constructor
  · intro hc
    exact ⟨(hcell c hc).1, (hcell c hc).2, Memory.read_of_mem hs hc⟩
  · rintro ⟨-, hne, hread⟩
    by_contra hc
    have hlisted : ∃ d ∈ m, d.1 = c.1 := by
      by_contra hnone
      exact hne (hread.symm.trans (Memory.read_of_not_listed fun d hd e => hnone ⟨d, hd, e⟩))
    obtain ⟨d, hd, hdc⟩ := hlisted
    have hbyte : d.2 = c.2 := by rw [← Memory.read_of_mem hs hd (font := font), hdc, hread]
    exact hc (Prod.ext hdc hbyte ▸ hd)

/-- Settles O12: canonical memories that read the same have the same cells, and a rising list is determined by its members. -/
theorem canonicalMemoriesAreDeterminedByReads : Obligations.CanonicalMemoriesAreDeterminedByReads := by
  intro font m m' h h' hread
  have hmem : ∀ c, c ∈ m ↔ c ∈ m' := by
    intro c
    rw [Memory.mem_iff_read h, Memory.mem_iff_read h']
    exact and_congr_right fun hc => by rw [hread c.1 hc]
  have : Std.Irrefl fun c d : Host.Cell => c.1 < d.1 := ⟨fun c => Nat.lt_irrefl c.1⟩
  have : Std.Antisymm fun c d : Host.Cell => c.1 < d.1 := ⟨fun c d hcd hdc => absurd hdc (Nat.lt_asymm hcd)⟩
  exact h.1.eq_of_mem_iff h'.1 hmem

end Sys2Proof.Machine

/-! SUPPORT. Which step may write which element: an instruction by its frame, the host's operations each by their own writes. -/

namespace Sys2Proof.Machine

/-! ### Which instruction's frame lists an element -/

section
variable {i : Instr} {s : State}

theorem instrWrites_stack (h : (instrWrites i s).stack = true) : i = .ret ∨ ∃ nnn, i = .call nnn := by
  cases i with
  | ret => exact .inl rfl
  | call nnn => exact .inr ⟨nnn, rfl⟩
  | ldVxK => simp only [instrWrites] at h; split at h <;> cases h
  | _ => cases h

theorem instrWrites_display (h : (instrWrites i s).display = true) : i = .cls ∨ ∃ x y n, i = .drw x y n := by
  cases i with
  | cls => exact .inl rfl
  | drw x y n => exact .inr ⟨x, y, n, rfl⟩
  | ret | call | ldVxK => simp only [instrWrites] at h; split at h <;> cases h
  | _ => cases h

theorem instrWrites_index (h : (instrWrites i s).index = true) :
    (∃ nnn, i = .ldI nnn) ∨ (∃ x, i = .addI x) ∨ (∃ x, i = .ldF x) ∨
      (s.legacy = true ∧ ∃ x, i = .ldMemVx x ∨ i = .ldVxMem x) := by
  cases i with
  | ldI nnn => exact .inl ⟨nnn, rfl⟩
  | addI x => exact .inr (.inl ⟨x, rfl⟩)
  | ldF x => exact .inr (.inr (.inl ⟨x, rfl⟩))
  | ldMemVx x => exact .inr (.inr (.inr ⟨h, x, .inl rfl⟩))
  | ldVxMem x => exact .inr (.inr (.inr ⟨h, x, .inr rfl⟩))
  | ret | call | ldVxK => simp only [instrWrites] at h; split at h <;> cases h
  | _ => cases h

theorem instrWrites_regs {r : Reg} (h : r ∈ (instrWrites i s).regs) :
    namesDestination r i = true ∨ (r = flagReg ∧ writesFlag i = true) := by
  cases i with
  | ldImm | addImm | ldReg | orReg | andReg | xorReg | rnd | ldVxDt =>
    exact .inl (decide_eq_true (List.mem_singleton.1 h))
  | addReg | subReg | shr | subnReg | shl =>
    rcases List.mem_pair.1 h with hx | hf
    · exact .inl (decide_eq_true hx)
    · exact .inr ⟨hf, rfl⟩
  | drw => exact .inr ⟨List.mem_singleton.1 h, rfl⟩
  | ldVxK x =>
    simp only [instrWrites] at h
    split at h
    · cases h
    · exact .inl (decide_eq_true (List.mem_singleton.1 h))
  | ldVxMem x => exact .inl (List.mem_filter.1 h).2
  | ret | call => simp only [instrWrites] at h; split at h <;> cases h
  | _ => cases h

end

/-- Settles O43, by the instruction's frame: a register outside its list is kept, and the list holds named destinations and, for
the six flag instructions, `VF`. -/
theorem onlyFlagInstructionsWriteVfUnnamed : Obligations.OnlyFlagInstructionsWriteVfUnnamed := by
  intro i s t r h hr
  by_contra hne
  exact hr ((exec_frame h).regs r fun hmem => hne (instrWrites_regs hmem))

/-! ### What the host's operations keep -/

/-- `t` has the elements of `s` that, of the operations, only an instruction and `RESET` write. -/
structure KeepsInstrState (s t : State) : Prop where
  index : t.i = s.i
  stack : t.stack = s.stack ∧ t.sp = s.sp
  fb : t.fb = s.fb
  legacy : t.legacy = s.legacy

/-- A step is a `RESET`, or runs an instruction and has its frame, or keeps what only those two write. -/
theorem step_writers {s t : State} (h : step s = .next t) :
    (∃ legacy, s.nextOp = .reset legacy) ∨
    (∃ i u, Executes s i ∧ KeepsInstrState s u ∧ exec i u = .next t) ∨ KeepsInstrState s t := by
  cases stepTo_of_step h with
  | @reset legacy hop => exact .inl ⟨legacy, hop⟩
  | @instruction keys rnd i _ hop hx he =>
    exact .inr (.inl ⟨i, s.takeOp.beginStep keys rnd, hx, ⟨rfl, ⟨rfl, rfl⟩, rfl, rfl⟩, he⟩)
  | tick => exact .inr (.inr (by rw [tickOp_eq]; exact ⟨rfl, ⟨rfl, rfl⟩, rfl, rfl⟩))
  | load => exact .inr (.inr ⟨by simp, by simp, by simp, by simp⟩)
  | haltedStep | illegalWord | readFb | clearDirty | loadTooLarge =>
    exact .inr (.inr ⟨rfl, ⟨rfl, rfl⟩, rfl, rfl⟩)

/-- Settles O36, by the writers of a step: an instruction other than 00EE and 2NNN has a frame without the stack. -/
theorem onlyCallAndReturnTouchStack : Obligations.OnlyCallAndReturnTouchStack := by
  intro s t h hne
  have hchanged : ¬(t.stack = s.stack ∧ t.sp = s.sp) := fun ⟨hst, hsp⟩ => hne.elim (· hst) (· hsp)
  rcases step_writers h with hreset | ⟨i, u, hx, hu, he⟩ | hk
  · exact .inl hreset
  · cases hw : (instrWrites i u).stack with
    | false =>
      obtain ⟨hst, hsp⟩ := (exec_frame he).stack hw
      exact absurd ⟨hst.trans hu.stack.1, hsp.trans hu.stack.2⟩ hchanged
    | true =>
      rcases instrWrites_stack hw with rfl | ⟨nnn, rfl⟩
      · exact .inr (.inl hx)
      · exact .inr (.inr ⟨nnn, hx⟩)
  · exact absurd hk.stack hchanged

/-- Settles O48, by the writers of a step: an instruction outside the list has a frame without `I`. -/
theorem onlyIndexInstructionsWriteIndex : Obligations.OnlyIndexInstructionsWriteIndex := by
  intro s t h hne
  rcases step_writers h with hreset | ⟨i, u, hx, hu, he⟩ | hk
  · exact .inl hreset
  · cases hw : (instrWrites i u).index with
    | false => exact absurd (((exec_frame he).index hw).trans hu.index) hne
    | true =>
      rcases instrWrites_index hw with ⟨nnn, rfl⟩ | ⟨x, rfl⟩ | ⟨x, rfl⟩ | ⟨hl, x, rfl | rfl⟩
      · exact .inr (.inl ⟨nnn, hx⟩)
      · exact .inr (.inr (.inl ⟨x, hx⟩))
      · exact .inr (.inr (.inr (.inl ⟨x, hx⟩)))
      · exact .inr (.inr (.inr (.inr ⟨hu.legacy.symm.trans hl, x, .inl hx⟩)))
      · exact .inr (.inr (.inr (.inr ⟨hu.legacy.symm.trans hl, x, .inr hx⟩)))
  · exact absurd hk.index hne

/-! ### The display (R23, R26) -/

/-- 00E0 and DXYN set `DIRTY` (R26). -/
theorem exec_sets_dirty {i : Instr} {s t : State} (hi : i = .cls ∨ ∃ x y n, i = .drw x y n)
    (h : exec i s = .next t) : t.dirty = true := by
  rcases hi with rfl | ⟨x, y, n, rfl⟩ <;> cases h <;> rfl

/-- No instruction clears `DIRTY` (R26). -/
theorem exec_keeps_dirty {i : Instr} {s t : State} (h : exec i s = .next t) (hs : s.dirty = true) :
    t.dirty = true := by
  cases hw : (instrWrites i s).display with
  | false => exact ((exec_frame h).display hw).2.trans hs
  | true => exact exec_sets_dirty (instrWrites_display hw) h

/-- A step that executes `i` is `exec i` on a state that begins the step. -/
theorem Executes.exec_eq {s t : State} {i : Instr} (hx : Executes s i) (h : step s = .next t) :
    ∃ keys rnd, exec i (s.takeOp.beginStep keys rnd) = .next t := by
  obtain ⟨hh, ⟨keys, rnd, hop⟩, hd⟩ := hx
  refine ⟨keys, rnd, ?_⟩
  rw [← h, step, hop]
  simp [runOp, stepOp, hh, hd]

theorem step_changes_fb {s t : State} (h : step s = .next t) (hne : t.fb ≠ s.fb) :
    (∃ legacy, s.nextOp = .reset legacy) ∨ Executes s .cls ∨ ∃ x y n, Executes s (.drw x y n) := by
  rcases step_writers h with hreset | ⟨i, u, hx, hu, he⟩ | hk
  · exact .inl hreset
  · cases hw : (instrWrites i u).display with
    | false => exact absurd (((exec_frame he).display hw).1.trans hu.fb) hne
    | true =>
      rcases instrWrites_display hw with rfl | ⟨x, y, n, rfl⟩
      · exact .inr (.inl hx)
      · exact .inr (.inr ⟨x, y, n, hx⟩)
  · exact absurd hk.fb hne

theorem step_clears_dirty {s t : State} (h : step s = .next t) (hs : s.dirty = true) (ht : t.dirty = false) :
    s.nextOp = .clearDirty ∨ ∃ legacy, s.nextOp = .reset legacy := by
  cases stepTo_of_step h with
  | clearDirty hop => exact .inl hop
  | @reset legacy hop => exact .inr ⟨legacy, hop⟩
  | instruction hop hx he => simp [exec_keeps_dirty he hs] at ht
  | tick hop => rw [tickOp_eq] at ht; simp [hs] at ht
  | haltedStep | illegalWord | readFb | load | loadTooLarge => simp [readFbOp, hs] at ht

/-- Settles O28, clause by clause: the frames for `FB`, the way the step went for `DIRTY`. -/
theorem onlyClearAndDrawChangeDisplay : Obligations.OnlyClearAndDrawChangeDisplay := by
  intro s t h
  refine ⟨step_changes_fb h, step_clears_dirty h, ?_⟩
  rintro (hx | ⟨x, y, n, hx⟩) <;> obtain ⟨keys, rnd, he⟩ := hx.exec_eq h
  · exact exec_sets_dirty (.inl rfl) he
  · exact exec_sets_dirty (.inr ⟨x, y, n, rfl⟩) he

/-! ### `TONE_OFF` and the load window (R27, R33) -/

/-- Settles O18, by the way the step went: no instruction's frame lets go of `TONE_OFF`. -/
theorem toneOffHoldsUntilNextTick : Obligations.ToneOffHoldsUntilNextTick := by
  intro s t h htick hreset
  cases stepTo_of_step h with
  | tick hop => exact absurd hop htick
  | @reset legacy hop => exact absurd hop (hreset legacy)
  | instruction hop hx he => exact (exec_frame he).toneOff
  | load => simp
  | haltedStep | illegalWord | readFb | clearDirty | loadTooLarge => rfl

/-- Settles O22, by the way the step went: a `STEP` begins by setting `STARTED`, a `LOAD` that fits sets `LOADED`, and no
instruction's frame lets go of either. -/
theorem loadWindowBits : Obligations.LoadWindowBits := by
  intro s t hh h hreset
  cases stepTo_of_step h with
  | haltedStep hop hh' => simp [hh] at hh'
  | instruction hop hx he =>
    obtain ⟨hst, hld⟩ := (exec_frame he).window
    simp [hst, hld, hop]
  | illegalWord hop => simp [hop]
  | tick hop => rw [tickOp_eq]; simp [hop]
  | readFb hop => simp [readFbOp, hop]
  | clearDirty hop => simp [clearDirtyOp, hop]
  | load hop hw hl => simp [hop, hl]
  | loadTooLarge hop hw hl => simp [hop, hl]
  | @reset legacy hop => exact absurd hop (hreset legacy)

/-! ### The host's operations, each as one next state -/

theorem step_of_nextOp {s : State} {op : HostOp} (h : s.nextOp = op) : step s = runOp op s.takeOp := by
  rw [step, h]

/-- Settles O19, by the operation invoked. -/
theorem rendererReadsAndClearsDirty : Obligations.RendererReadsAndClearsDirty := by
  intro s
  exact ⟨fun h => step_of_nextOp h, fun h => step_of_nextOp h⟩

/-- Settles O20: both operations test `HALT` first. -/
theorem haltedStepAndTickChangeNothing : Obligations.HaltedStepAndTickChangeNothing := by
  intro s hh
  refine ⟨fun keys rnd h => ?_, fun h => ?_⟩
  · rw [step_of_nextOp h]
    simp [runOp, stepOp, hh, State.finish]
  · rw [step_of_nextOp h]
    simp [runOp, tickOp, hh, State.finish]

/-! ### `RESET` (R38, R122) -/

/-- Empty memory reads as `FONTSET` below 0x050 (R19). -/
theorem Memory.read_nil_font (font : Fontset) {a : Nat} (h : a < 80) : Memory.read font [] (maskAddr a) = font[a] := by
  have hm : maskAddr a = a := Nat.mod_eq_of_lt (by omega)
  simp [Memory.read, resetByte, hm, h]

/-- Empty memory reads as zero from 0x050 on (R38). -/
theorem Memory.read_nil_zero (font : Fontset) {a : Nat} (h : 80 ≤ a) (ha : a < 4096) :
    Memory.read font [] (maskAddr a) = 0x00#8 := by
  have hm : maskAddr a = a := Nat.mod_eq_of_lt ha
  simp [Memory.read, resetByte, hm, Nat.not_lt.2 h]

theorem State.resetWith_afterReset (legacy : Bool) (edge : DrawEdge) (font : Fontset) :
    AfterReset legacy (State.resetWith legacy edge font) := by
  refine ⟨rfl, fun a h => Memory.read_nil_font font h, fun a h ha => Memory.read_nil_zero font h ha, ?_⟩
  simp [State.resetWith, pixelAt]

/-- The element table does not speak of the host's side, so `RESET`'s state has it as `State.resetWith` has. -/
theorem resetOp_afterReset (legacy : Bool) (s : State) : AfterReset legacy (resetOp legacy s) :=
  State.resetWith_afterReset legacy s.drawEdge s.fontset

/-- Settles O15: `RESET` builds the reset state over the parameters it finds. -/
theorem resetSetsEveryElement : Obligations.ResetSetsEveryElement :=
  ⟨fun s legacy h => ⟨_, step_of_nextOp h, resetOp_afterReset legacy s.takeOp, rfl, rfl⟩,
    State.resetWith_afterReset _ _ _⟩

end Sys2Proof.Machine

/-! SUPPORT. What an instruction cannot see: `LEGACY`, `KEYS`, `RND` and `ST` are each read by a few instructions, and every other
instruction carries a new value of one of them through unchanged. -/

namespace Sys2Proof.Machine

/-- A new value for one of the four elements that few instructions read (R29, R30, R31, R22). -/
inductive Override where
  | legacy (b : Bool)
  | keys (k : Word)
  | rnd (b : Byte)
  | sound (b : Byte)

/-- The state with one element overridden. -/
def State.override (s : State) : Override → State
  | .legacy b => { s with legacy := b }
  | .keys k => { s with keys := k }
  | .rnd b => { s with rnd := b }
  | .sound b => { s with st := b }

/-- The instruction reads the overridden element or, for `ST`, writes it. -/
def Override.UsedBy (i : Instr) : Override → Prop
  | .legacy _ => readsLegacy i = true
  | .keys _ => readsKeys i = true
  | .rnd _ => ∃ x nn, i = .rnd x nn
  | .sound _ => ∃ x, i = .ldStVx x

namespace State

/-! ### What an override leaves -/

section
variable (s : State) (o : Override)

@[simp] theorem override_v : (s.override o).v = s.v := by cases o <;> rfl
@[simp] theorem override_i : (s.override o).i = s.i := by cases o <;> rfl
@[simp] theorem override_pc : (s.override o).pc = s.pc := by cases o <;> rfl
@[simp] theorem override_stack : (s.override o).stack = s.stack := by cases o <;> rfl
@[simp] theorem override_sp : (s.override o).sp = s.sp := by cases o <;> rfl
@[simp] theorem override_dt : (s.override o).dt = s.dt := by cases o <;> rfl
@[simp] theorem override_effAddr (k : Nat) : (s.override o).effAddr k = s.effAddr k := by cases o <;> rfl
@[simp] theorem override_readByte (a : Nat) : (s.override o).readByte a = s.readByte a := by cases o <;> rfl
@[simp] theorem override_regRange (x : Reg) : (s.override o).regRange x = s.regRange x := by cases o <;> rfl
@[simp] theorem override_anchorX (x : Reg) : (s.override o).anchorX x = s.anchorX x := by cases o <;> rfl
@[simp] theorem override_anchorY (y : Reg) : (s.override o).anchorY y = s.anchorY y := by cases o <;> rfl
@[simp] theorem override_blit (x0 y0 n : Nat) : (s.override o).blit x0 y0 n = s.blit x0 y0 n := by cases o <;> rfl

/-! ### An override moves out of every operation that does not write its element -/

@[simp] theorem override_setV (x : Reg) (b : Byte) : (s.override o).setV x b = (s.setV x b).override o := by
  cases o <;> rfl
@[simp] theorem override_setIndex (w : Word) : (s.override o).setIndex w = (s.setIndex w).override o := by
  cases o <;> rfl
@[simp] theorem override_setPc (w : Word) : (s.override o).setPc w = (s.setPc w).override o := by cases o <;> rfl
@[simp] theorem override_setDelay (b : Byte) : (s.override o).setDelay b = (s.setDelay b).override o := by
  cases o <;> rfl
@[simp] theorem override_setStack (st : Vector Word 16) (d : Fin 17) :
    (s.override o).setStack st d = (s.setStack st d).override o := by cases o <;> rfl
@[simp] theorem override_setDisplay (fb : Framebuffer) :
    (s.override o).setDisplay fb = (s.setDisplay fb).override o := by cases o <;> rfl
@[simp] theorem override_loadRange (x : Reg) : (s.override o).loadRange x = (s.loadRange x).override o := by
  cases o <;> rfl
@[simp] theorem override_writeByte (a : Nat) (b : Byte) :
    (s.override o).writeByte a b = (s.writeByte a b).override o := by cases o <;> rfl
@[simp] theorem override_finish (r : OpResult) : (s.override o).finish r = (s.finish r).override o := by
  cases o <;> rfl
@[simp] theorem override_raise (e : ErrorKind) (w a : Word) :
    (s.override o).raise e w a = (s.raise e w a).override o := by cases o <;> rfl

end

@[simp] theorem override_writeBytes (o : Override) (bs : List Byte) : ∀ (s : State) (a : Nat),
    (s.override o).writeBytes a bs = (s.writeBytes a bs).override o := by
  induction bs with
  | nil => intro s a; rfl
  | cons b bs ih => intro s a; simp only [State.writeBytes, override_writeByte, ih]

/-! ### The overridden element itself, when the instruction does not use it -/

section
variable {i : Instr} {o : Override} (h : ¬o.UsedBy i)
include h

theorem override_legacy (hi : readsLegacy i = true) (s : State) : (s.override o).legacy = s.legacy := by
  cases o with
  | legacy b => exact absurd hi h
  | _ => rfl

theorem override_keys (hi : readsKeys i = true) (s : State) : (s.override o).keys = s.keys := by
  cases o with
  | keys k => exact absurd hi h
  | _ => rfl

end

theorem override_rnd {o : Override} {x : Reg} {nn : Byte} (h : ¬o.UsedBy (.rnd x nn)) (s : State) :
    (s.override o).rnd = s.rnd := by
  cases o with
  | rnd b => exact absurd ⟨x, nn, rfl⟩ h
  | _ => rfl

theorem override_setSound {o : Override} {x : Reg} (h : ¬o.UsedBy (.ldStVx x)) (s : State) (b : Byte) :
    (s.override o).setSound b = (s.setSound b).override o := by
  cases o with
  | sound c => exact absurd ⟨x, rfl⟩ h
  | _ => rfl

end State

/-! ### Instructions under an override -/

/-- Both outcomes are next states, and the second is the first with the override. -/
def CarriesOver (o : Override) (out out' : StepOutcome) : Prop :=
  ∃ t : State, out = .next t ∧ out' = .next (t.override o)

section
variable {o : Override} {u u' : State}

theorem CarriesOver.of_next (h : u' = u.override o) : CarriesOver o (.next u) (.next u') := ⟨u, rfl, by rw [h]⟩

theorem CarriesOver.complete (h : u' = u.override o) : CarriesOver o (complete u) (complete u') :=
  .of_next (by rw [h, State.override_finish])

end

theorem execRet_carriesOver (o : Override) (s : State) : CarriesOver o (execRet s) (execRet (s.override o)) := by
  rcases Nat.eq_zero_or_pos s.sp.val with h0 | hpos
  · rw [execRet_of_empty h0, execRet_of_empty (by simpa using h0)]
    exact .of_next (by simp)
  · rw [execRet_of_pos hpos, execRet_of_pos (by simpa using hpos)]
    exact .complete (by simp)

theorem execCall_carriesOver (o : Override) (nnn : Addr12) (s : State) :
    CarriesOver o (execCall nnn s) (execCall nnn (s.override o)) := by
  rcases s.sp_full_or_lt with h16 | hlt
  · rw [execCall_of_full nnn h16, execCall_of_full nnn (by simpa using h16)]
    exact .of_next (by simp)
  · rw [execCall_of_lt nnn hlt, execCall_of_lt nnn (by simpa using hlt)]
    exact .complete (by simp)

theorem execLdVxK_carriesOver {o : Override} {x : Reg} (h : ¬o.UsedBy (.ldVxK x)) (s : State) :
    CarriesOver o (execLdVxK x s) (execLdVxK x (s.override o)) := by
  have hkeys := State.override_keys h rfl s
  cases hk : lowestKey s.keys with
  | none =>
    rw [execLdVxK_of_none x hk, execLdVxK_of_none x (hkeys ▸ hk)]
    exact .of_next (by simp)
  | some k =>
    rw [execLdVxK_of_some x hk, execLdVxK_of_some x (hkeys ▸ hk)]
    exact .complete (by simp)

/-- An instruction that does not use the overridden element carries the override through. -/
theorem exec_carriesOver {i : Instr} {o : Override} (h : ¬o.UsedBy i) (s : State) :
    CarriesOver o (exec i s) (exec i (s.override o)) := by
  cases i with
  | ret => exact execRet_carriesOver o s
  | call nnn => exact execCall_carriesOver o nnn s
  | ldVxK x => exact execLdVxK_carriesOver h s
  | skp | sknp => exact .complete (by simp [State.override_keys h rfl])
  | shr | shl => exact .complete (by simp [State.shiftSource, State.override_legacy h rfl])
  | jpOffset nnn => exact .complete (by simp [State.jumpOffsetTarget, State.override_legacy h rfl])
  | ldMemVx | ldVxMem => exact .complete (by simp [State.indexAfterRange, State.override_legacy h rfl])
  | rnd => exact .complete (by simp [State.override_rnd h])
  | ldStVx => exact .complete (by simp [State.override_setSound h])
  | _ => exact .complete (by simp)

/-- Noninterference: from states that differ in the overridden element, an instruction that does not use it goes to states that
differ in it. -/
theorem exec_override {i : Instr} {o : Override} {s t : State} (h : ¬o.UsedBy i) (he : exec i s = .next t) :
    exec i (s.override o) = .next (t.override o) := by
  obtain ⟨u, hu, hu'⟩ := exec_carriesOver h s
  cases hu.symm.trans he
  exact hu'

/-! ### The four elements -/

/-- Settles O56, by noninterference for an override of `KEYS`. -/
theorem onlyKeyInstructionsReadKeys : Obligations.OnlyKeyInstructionsReadKeys := by
  intro i s t keys hi he
  exact exec_override (o := .keys keys) (by simp [Override.UsedBy, hi]) he

/-- Settles O57, by noninterference for an override of `RND`. -/
theorem onlyRandomReadsRnd : Obligations.OnlyRandomReadsRnd := by
  intro i s t rnd hi he
  exact exec_override (o := .rnd rnd) (fun ⟨x, nn, h⟩ => hi x nn h) he

/-- Settles O58, by noninterference for an override of `ST`; FX18 writes `ST` whatever it was. -/
theorem noInstructionReadsSoundTimer : Obligations.NoInstructionReadsSoundTimer := by
  intro i s t b he
  refine ⟨fun hi => exec_override (o := .sound b) (fun ⟨x, h⟩ => hi x h) he, ?_⟩
  rintro ⟨x, rfl⟩
  exact he

/-- A `RESET` loads `LEGACY`. -/
theorem step_reset_legacy {s t : State} (h : step s = .next t) {legacy : Bool} (hop : s.nextOp = .reset legacy) :
    t.legacy = legacy := by
  cases (step_of_nextOp hop).symm.trans h
  rfl

/-- A step other than `RESET` keeps `LEGACY`: no instruction's frame lets go of it. -/
theorem step_keeps_legacy {s t : State} (h : step s = .next t) (hop : ∀ legacy, s.nextOp ≠ .reset legacy) :
    t.legacy = s.legacy := by
  rcases step_writers h with ⟨legacy, hreset⟩ | ⟨i, u, -, hu, he⟩ | hk
  · exact absurd hreset (hop legacy)
  · exact (exec_frame he).legacy.trans hu.legacy
  · exact hk.legacy

/-- Settles O54: what a step does to `LEGACY` by its writers, what an instruction sees of it by noninterference. -/
theorem legacyIsLoadedByResetAndReadByFive : Obligations.LegacyIsLoadedByResetAndReadByFive := by
  refine ⟨fun s t h => ⟨fun legacy => step_reset_legacy h, step_keeps_legacy h⟩, ?_⟩
  intro i s t b hi he
  exact exec_override (o := .legacy b) (by simp [Override.UsedBy, hi]) he

end Sys2Proof.Machine

/-! SUPPORT. Memory as later reads and fetches see it (20_memory.md): the mask at the access, a stored run fetched back, and the
writers of memory. -/

namespace Sys2Proof.Machine

/-! ### The mask, and a fetch from a run of byte writes (R39, R43) -/

/-- A read masks its own address, so masking the address beforehand changes nothing (R39). -/
theorem State.readByte_mod (s : State) (a : Nat) : s.readByte (a % 4096) = s.readByte a :=
  congrArg (Memory.read s.fontset s.mem) (Nat.mod_mod a 4096)

/-- Settles O10: a write is read back where the masked addresses agree, and a read elsewhere masks its own address. -/
theorem readReturnsLatestWriteAtMaskedAddress : Obligations.ReadReturnsLatestWriteAtMaskedAddress := by
  intro s a c b
  rw [State.readByte_mod]
  exact s.readByte_writeByte a c b

/-- A fetch from where a run of at least two byte writes began sees its first two bytes. -/
theorem State.fetch_writeBytes (s : State) (a : Word) {bs : List Byte} (h2 : 2 ≤ bs.length) (hl : bs.length ≤ 4096) :
    (s.writeBytes a.toNat bs).fetch a = bs[0] ++ bs[1] := by
  have h0 := State.readByte_writeBytes_inside bs s a.toNat 0 (by omega) hl
  have h1 := State.readByte_writeBytes_inside bs s a.toNat 1 (by omega) hl
  rw [Nat.add_zero] at h0
  rw [State.fetch, h0, h1]

/-! ### The bytes that FX55 and FX33 store (R97, R98) -/

theorem State.regRange_getElem (s : State) {x k : Reg} (h : k.val < (s.regRange x).length) :
    (s.regRange x)[k.val] = s.v[k] := by
  simp [State.regRange]

@[simp] theorem bcdDigits_length (b : Byte) : (bcdDigits b).length = 3 := rfl

theorem ofNat_append_ofNat (a : Nat) {b : Nat} (hb : b < 256) :
    BitVec.ofNat 8 a ++ BitVec.ofNat 8 b = BitVec.ofNat 16 (256 * a + b) := by
  apply BitVec.eq_of_toNat_eq
  rw [toNat_append_eq, BitVec.toNat_ofNat, BitVec.toNat_ofNat, BitVec.toNat_ofNat]
  omega

/-- The word fetched from `I` after FX55 with `x` at least 1: the advance and the write of `I` are not seen by a fetch. -/
theorem execLdMemVx_fetch {x : Reg} (hx : 1 ≤ x) (s : State) :
    ∃ t, execLdMemVx x s = .next t ∧ t.fetch s.i = s.v[(0 : Reg)] ++ s.v[(1 : Reg)] := by
  have hx' : 1 ≤ x.val := hx
  have hlen := s.regRange_length x
  have hw := s.advance.fetch_writeBytes s.i (bs := s.regRange x) (by omega) (by omega)
  refine ⟨_, rfl, ?_⟩
  rw [State.finish_fetch, State.setIndex_fetch]
  exact hw.trans (congrArg₂ (· ++ ·) (s.regRange_getElem (k := 0) _) (s.regRange_getElem (k := 1) _))

/-- The word fetched from `I` after FX33: the hundreds digit, then the tens digit. -/
theorem execLdB_fetch (x : Reg) (s : State) :
    ∃ t, execLdB x s = .next t ∧
      t.fetch s.i = BitVec.ofNat 16 (256 * (s.v[x].toNat / 100) + s.v[x].toNat / 10 % 10) := by
  have hw := s.advance.fetch_writeBytes s.i (bs := bcdDigits s.v[x]) (by simp) (by simp)
  refine ⟨_, rfl, ?_⟩
  rw [State.finish_fetch]
  exact hw.trans (ofNat_append_ofNat _ (by omega))

/-- Settles O11: each store is a run of byte writes at `I` of at least two bytes, and a fetch from there sees the first two. -/
theorem storedBytesAreFetched : Obligations.StoredBytesAreFetched :=
  ⟨fun _ s hx => execLdMemVx_fetch hx s, execLdB_fetch⟩

/-! ### The writers of memory (R40) -/

theorem instrWrites_store {i : Instr} {s : State} (h : (instrWrites i s).store.2 ≠ 0) :
    (∃ x, i = .ldB x) ∨ ∃ x, i = .ldMemVx x := by
  cases i with
  | ldB x => exact .inl ⟨x, rfl⟩
  | ldMemVx x => exact .inr ⟨x, rfl⟩
  | ret | call | ldVxK => simp only [instrWrites] at h; split at h <;> exact absurd rfl h
  | _ => exact absurd rfl h

/-- An instruction whose frame lists no run of memory keeps every byte. -/
theorem exec_keeps_readByte {i : Instr} {s t : State} (h : exec i s = .next t) (hw : (instrWrites i s).store.2 = 0)
    (a : Nat) : t.readByte a = s.readByte a :=
  (exec_frame h).mem a fun k hk => by simp [hw] at hk

/-- Settles O49, by the way the step went: an instruction other than FX33 and FX55 lists no run of memory in its frame, and of the
host's operations only `LOAD` and `RESET` write memory. -/
theorem onlyStoresAndLoadWriteMemory : Obligations.OnlyStoresAndLoadWriteMemory := by
  intro s t a h hne
  cases stepTo_of_step h with
  | @reset legacy hop => exact .inl ⟨legacy, hop⟩
  | @load rom hop => exact .inr (.inl ⟨rom, hop⟩)
  | @instruction keys rnd i _ hop hx he =>
    have hw : (instrWrites i (s.takeOp.beginStep keys rnd)).store.2 ≠ 0 := fun hw => hne (exec_keeps_readByte he hw a)
    rcases instrWrites_store hw with ⟨x, rfl⟩ | ⟨x, rfl⟩
    · exact .inr (.inr (.inl ⟨x, hx⟩))
    · exact .inr (.inr (.inr ⟨x, hx⟩))
  | tick => rw [tickOp_eq] at hne; exact absurd rfl hne
  | haltedStep | illegalWord | readFb | clearDirty | loadTooLarge => exact absurd rfl hne

end Sys2Proof.Machine

/-! SUPPORT. The decoder on a word whose fixed bits are known: on an encoding it answers the instruction, on a word of R63's list
it rejects the word. Then the fetch, and a `STEP` by what the fetched word decodes to. -/

namespace Sys2Proof

/-! ### The families that decode further than `op` (R58 to R62) -/

section
variable {w : Word}

theorem decode_eq_family0 (h : (opField w).toNat = 0x0) : decode w = decodeFamily0 w := by simp only [decode, h]
theorem decode_eq_family5 (h : (opField w).toNat = 0x5) : decode w = decodeFamily5 w := by simp only [decode, h]
theorem decode_eq_family8 (h : (opField w).toNat = 0x8) : decode w = decodeFamily8 w := by simp only [decode, h]
theorem decode_eq_family9 (h : (opField w).toNat = 0x9) : decode w = decodeFamily9 w := by simp only [decode, h]
theorem decode_eq_familyE (h : (opField w).toNat = 0xE) : decode w = decodeFamilyE w := by simp only [decode, h]
theorem decode_eq_familyF (h : (opField w).toNat = 0xF) : decode w = decodeFamilyF w := by simp only [decode, h]

end

/-! ### The decoder on an encoding -/

/-- Every instruction decodes from its own word: `op` is the one its family has, the low bits choose it in the family, and the
operand fields of the layout are its operands. -/
theorem decode_encode (i : Instr) : decode (encode i) = .ok i := by
  cases i with
  | cls | ret => decide
  | jp | call | ldI | jpOffset | seImm | sneImm | ldImm | addImm | rnd | drw => simp [encode, decode]
  | seReg => rw [encode, decode_eq_family5 (by simp)]; simp [decodeFamily5]
  | ldReg | orReg | andReg | xorReg | addReg | subReg | shr | subnReg | shl =>
    rw [encode, decode_eq_family8 (by simp)]; simp [decodeFamily8]
  | sneReg => rw [encode, decode_eq_family9 (by simp)]; simp [decodeFamily9]
  | skp | sknp => rw [encode, decode_eq_familyE (by simp)]; simp [decodeFamilyE]
  | ldVxDt | ldVxK | ldDtVx | ldStVx | addI | ldF | ldB | ldMemVx | ldVxMem =>
    rw [encode, decode_eq_familyF (by simp)]; simp [decodeFamilyF]

/-! ### The decoder on a word of R63's list -/

section
variable {w : Word}

theorem decode_of_illegalFamily0 (h : illegalFamily0 w = true) : decode w = .error (.unknownInstruction w) := by
  simp only [illegalFamily0, Bool.and_eq_true, decide_eq_true_eq, Bool.not_eq_true', beq_eq_false_iff_ne] at h
  obtain ⟨⟨hle, hcls⟩, hret⟩ := h
  have hop : (opField w).toNat = 0x0 := by rw [opField_toNat]; omega
  rw [decode_eq_family0 hop, decodeFamily0, if_neg hcls, if_neg hret]

theorem decode_of_illegalFamily5or9 (h : illegalFamily5or9 w = true) : decode w = .error (.unknownInstruction w) := by
  simp only [illegalFamily5or9, Bool.and_eq_true, Bool.or_eq_true, beq_iff_eq, Bool.not_eq_true', beq_eq_false_iff_ne,
    ← opField_toNat, ← nField_val] at h
  obtain ⟨hop, hn⟩ := h
  have hn0 : nField w ≠ 0 := fun e => hn (congrArg Fin.val e)
  rcases hop with hop | hop
  · rw [decode_eq_family5 hop, decodeFamily5, if_neg hn0]
  · rw [decode_eq_family9 hop, decodeFamily9, if_neg hn0]

theorem decode_of_illegalFamily8 (h : illegalFamily8 w = true) : decode w = .error (.unknownInstruction w) := by
  simp only [illegalFamily8, Bool.and_eq_true, beq_iff_eq, List.contains_iff_mem, ← opField_toNat, ← nField_val] at h
  obtain ⟨hop, hn⟩ := h
  rw [decode_eq_family8 hop, decodeFamily8]
  split
  case h_10 => rfl
  all_goals next hn' => simp [hn'] at hn

theorem decode_of_illegalFamilyE (h : illegalFamilyE w = true) : decode w = .error (.unknownInstruction w) := by
  simp only [illegalFamilyE, Bool.and_eq_true, beq_iff_eq, Bool.not_eq_true', ← opField_toNat, ← nnField_toNat] at h
  obtain ⟨hop, hnn⟩ := h
  rw [decode_eq_familyE hop, decodeFamilyE]
  split
  case h_3 => rfl
  all_goals next hnn' => simp [hnn'] at hnn

theorem decode_of_illegalFamilyF (h : illegalFamilyF w = true) : decode w = .error (.unknownInstruction w) := by
  simp only [illegalFamilyF, Bool.and_eq_true, beq_iff_eq, Bool.not_eq_true', ← opField_toNat, ← nnField_toNat] at h
  obtain ⟨hop, hnn⟩ := h
  rw [decode_eq_familyF hop, decodeFamilyF]
  split
  case h_10 => rfl
  all_goals next hnn' => simp [hnn'] at hnn

/-- An illegal word is rejected by name, whichever row of R63 lists it. -/
theorem decode_of_not_legalWord (h : legalWord w = false) : decode w = .error (.unknownInstruction w) := by
  rcases (legalWord_eq_false_iff w).1 h with h | h | h | h | h
  · exact decode_of_illegalFamily0 h
  · exact decode_of_illegalFamily5or9 h
  · exact decode_of_illegalFamily8 h
  · exact decode_of_illegalFamilyE h
  · exact decode_of_illegalFamilyF h

end

/-- The decoder rejects exactly the words of R63's list. -/
theorem decode_eq_error_iff (w : Word) : decode w = .error (.unknownInstruction w) ↔ legalWord w = false :=
  ⟨legalWord_of_decode_error, decode_of_not_legalWord⟩

/-- A word has an instruction exactly when R63's list leaves it out. -/
theorem decode_eq_ok_iff (w : Word) : (∃ i, decode w = .ok i) ↔ legalWord w = true := by
  constructor
  · rintro ⟨i, hi⟩
    refine Bool.eq_true_of_not_eq_false fun hl => ?_
    cases hi.symm.trans (decode_of_not_legalWord hl)
  · intro hl
    cases hd : decode w with
    | ok i => exact ⟨i, rfl⟩
    | error e => cases hl.symm.trans (legalWord_of_decode_error hd)

/-! ### The statements about words -/

/-- Settles O1, by the instruction's family. -/
theorem decodeOfEncodeIsIdentity : Obligations.DecodeOfEncodeIsIdentity := decode_encode

/-- Settles O2, by the family of the word. -/
theorem encodeOfDecodeIsIdentity : Obligations.EncodeOfDecodeIsIdentity := fun _ _ h => encode_of_decode h

/-- Settles O3: each of R63's rows against the family of the decoder that it speaks of, in both directions. -/
theorem everyWordDecodesOrIsIllegal : Obligations.EveryWordDecodesOrIsIllegal :=
  fun w => ⟨decode_eq_ok_iff w, decode_eq_error_iff w⟩

/-- Settles O4, by running the decoder on the nine words. -/
theorem sampleWordsDecode : Obligations.SampleWordsDecode := by
  unfold Obligations.SampleWordsDecode
  decide

end Sys2Proof

namespace Sys2Proof.Machine

/-! ### The fetch (R53) -/

/-- Settles O5: the fetch appends two bytes, and each read masks its own address. -/
theorem fetchCombinesTwoBytesBigEndian : Obligations.FetchCombinesTwoBytesBigEndian := by
  intro s a
  rw [State.fetch, toNat_append_eq, State.readByte_mod, State.readByte_mod]
  omega

/-! ### A `STEP` of a block that is not halted, by the word at `PC` (R52, R63) -/

section
variable {s : State} {keys : Word} {rnd : Byte}

theorem step_of_decode_ok {i : Instr} (hop : s.nextOp = .step keys rnd) (hh : s.halt = false)
    (hd : decode (s.fetch s.pc) = .ok i) : step s = exec i (s.takeOp.beginStep keys rnd) := by
  rw [step_of_nextOp hop]
  simp [runOp, stepOp, hh, hd]

theorem step_of_decode_error (hop : s.nextOp = .step keys rnd) (hh : s.halt = false)
    (hd : decode (s.fetch s.pc) = .error (.unknownInstruction (s.fetch s.pc))) :
    step s = .next ((s.takeOp.beginStep keys rnd).raise .unknownInstruction (s.fetch s.pc) s.pc) := by
  rw [step_of_nextOp hop]
  simp [runOp, stepOp, hh, hd]

end

/-- An error raised at the word at `PC`, as the statements name it: the halt record is written and the rest is framed (R109). -/
theorem State.raise_raised (s : State) (e : ErrorKind) (word : Word) : Raised e.code word s (s.raise e word s.pc) :=
  ⟨rfl, rfl, rfl, rfl, rfl, rfl, (Frame.refl _ s).raise rfl e word s.pc⟩

/-- Settles O6: a `STEP` tests `HALT`, fetches and decodes before it runs the instruction. -/
theorem stepRunsDecodedInstruction : Obligations.StepRunsDecodedInstruction :=
  fun _ _ _ _ hop hh hd => step_of_decode_ok hop hh hd

/-- Settles O7: an illegal word does not decode, and the step raises from the state that begins it. -/
theorem illegalWordRaisesUnknownInstruction : Obligations.IllegalWordRaisesUnknownInstruction := by
  intro s keys rnd hop hh hl
  exact ⟨_, step_of_decode_error hop hh (decode_of_not_legalWord hl), rfl, State.raise_raised _ .unknownInstruction _⟩

end Sys2Proof.Machine

/-! SUPPORT. The display instructions pixel by pixel (40_display.md). Each part of a sprite blit flips a set of pixels and reports a
collision; parts over disjoint sets compose, and the parts of one sprite are disjoint: its 8 columns and at most 15 rows stay apart
modulo 64 and 32. -/

namespace Sys2Proof.Machine

/-- The end of an instruction whose `PC` is at the next instruction (R52, R54). -/
theorem State.finish_advancedPast {s t : State} (h : t.pc = s.pc + 2#16) : AdvancedPast s (t.finish .advanced) :=
  ⟨rfl, by rw [State.finish_pc, h, BitVec.toNat_add]; rfl⟩

/-- Settles O25: the blank frame has every pixel off. -/
theorem clearScreenTurnsEveryPixelOff : Obligations.ClearScreenTurnsEveryPixelOff := fun _ =>
  ⟨decode_encode .cls, _, rfl, State.finish_advancedPast rfl, pixelAt_blankFrame, rfl, exec_frame (i := .cls) rfl⟩

/-! ### Flipping a set of pixels -/

/-- From `acc` to `acc'` (a framebuffer and the collision so far) exactly the pixels of `C` are flipped, and a pixel of `C` that
was on collides. -/
structure Flips (C : Fin 64 → Fin 32 → Prop) (acc acc' : Framebuffer × Bool) : Prop where
  covered : ∀ px py, C px py → pixelAt acc'.1 px py = !pixelAt acc.1 px py
  uncovered : ∀ px py, ¬C px py → pixelAt acc'.1 px py = pixelAt acc.1 px py
  collides : acc'.2 = true ↔ acc.2 = true ∨ ∃ px py, C px py ∧ pixelAt acc.1 px py = true

section
variable {C D : Fin 64 → Fin 32 → Prop} {a b c : Framebuffer × Bool}

theorem Flips.refl (h : ∀ px py, ¬C px py) (a : Framebuffer × Bool) : Flips C a a where
  covered px py hc := absurd hc (h px py)
  uncovered _ _ _ := rfl
  collides := by simp [h]

/-- Flips of disjoint sets compose: the second sees its own pixels as they were before the first. -/
theorem Flips.trans (hab : Flips C a b) (hbc : Flips D b c) (hd : ∀ px py, C px py → ¬D px py) :
    Flips (fun px py => C px py ∨ D px py) a c where
  covered px py := by
    rintro (hC | hD)
    · rw [hbc.uncovered px py (hd px py hC), hab.covered px py hC]
    · rw [hbc.covered px py hD, hab.uncovered px py fun hC => hd px py hC hD]
  uncovered px py h := by
    rw [hbc.uncovered px py fun hD => h (.inr hD), hab.uncovered px py fun hC => h (.inl hC)]
  collides := by
    have hsame : ∀ px py, (D px py ∧ pixelAt b.1 px py = true) ↔ (D px py ∧ pixelAt a.1 px py = true) :=
      fun px py => and_congr_right fun hD => by rw [hab.uncovered px py fun hC => hd px py hC hD]
    simp only [hbc.collides, hab.collides, hsame, or_and_right, exists_or, or_assoc]

theorem Flips.congr (h : Flips C a b) (hCD : ∀ px py, C px py ↔ D px py) : Flips D a b := by
  have : C = D := funext₂ fun px py => propext (hCD px py)
  exact this ▸ h

end

/-- A loop whose rounds flip pairwise disjoint sets flips their union. -/
theorem Flips.foldl_range {f : Framebuffer × Bool → Nat → Framebuffer × Bool} {C : Nat → Fin 64 → Fin 32 → Prop}
    (hf : ∀ acc k, Flips (C k) acc (f acc k)) (n : Nat) (hd : ∀ j k px py, j < k → k < n → C j px py → ¬C k px py)
    (acc : Framebuffer × Bool) : Flips (fun px py => ∃ k < n, C k px py) acc ((List.range n).foldl f acc) := by
  induction n with
  | zero => exact .refl (by simp) acc
  | succ n ih =>
    have hrounds := ih fun j k px py hjk hk => hd j k px py hjk (by omega)
    rw [List.range_succ, List.foldl_append]
    refine (hrounds.trans (hf _ n) ?_).congr fun px py => Nat.exists_lt_succ_right.symm
    rintro px py ⟨j, hj, hC⟩
    exact hd j n px py hj (by omega) hC

/-! ### The blit (R69, R70) -/

/-- Under either edge policy a target lies at its position modulo the screen. -/
theorem target_mod {edge : DrawEdge} {p q : Nat} {px : Fin 64} {py : Fin 32} (h : target edge p q = some (px, py)) :
    p % 64 = px.val ∧ q % 32 = py.val := by
  rw [target_eq_some_iff] at h
  cases edge with
  | clip =>
    obtain ⟨rfl, rfl⟩ := h
    exact ⟨Nat.mod_eq_of_lt px.isLt, Nat.mod_eq_of_lt py.isLt⟩
  | wrap => exact h

theorem blitBit_flips (edge : DrawEdge) (p q : Nat) (bit : Bool) (acc : Framebuffer × Bool) :
    Flips (fun px py => bit = true ∧ target edge p q = some (px, py)) acc (blitBit edge p q bit acc) := by
  cases bit with
  | false => exact .refl (by simp) acc
  | true =>
    cases ht : target edge p q with
    | none =>
      simp only [blitBit, ht]
      exact .refl (by simp) acc
    | some xy =>
      obtain ⟨x, y⟩ := xy
      simp only [blitBit, ht]
      refine ⟨fun px py h => ?_, fun px py h => ?_, ?_⟩
      · obtain ⟨rfl, rfl⟩ : x = px ∧ y = py := by simpa using h
        simp [pixelAt_flipPixel]
      · have hne : ¬(x = px ∧ y = py) := by simpa using h
        simp [pixelAt_flipPixel, hne]
      · simp

theorem blitRow_flips (edge : DrawEdge) (x0 q : Nat) (b : Byte) (acc : Framebuffer × Bool) :
    Flips (fun px py => ∃ c < 8, b.getLsbD (7 - c) = true ∧ target edge (x0 + c) q = some (px, py)) acc
      (blitRow edge x0 q b acc) := by
  refine Flips.foldl_range (fun acc c => blitBit_flips edge (x0 + c) q (b.getLsbD (7 - c)) acc) 8 ?_ acc
  rintro c c' px py hcc hc' ⟨-, h⟩ ⟨-, h'⟩
  have := (target_mod h).1
  have := (target_mod h').1
  omega

/-- What a sprite covers, by the target of each of its bits. -/
theorem spriteCovers_iff_target (s : State) (x y : Reg) (n : Fin 16) (px : Fin 64) (py : Fin 32) :
    SpriteCovers s x y n px py ↔ ∃ r < n.val, ∃ c < 8, (s.readByte (s.effAddr r)).getLsbD (7 - c) = true ∧
      target s.drawEdge (s.anchorX x + c) (s.anchorY y + r) = some (px, py) := by
  cases he : s.drawEdge <;>
    simp [SpriteCovers, he, target_eq_some_iff, State.effAddr, State.anchorX, State.anchorY]

theorem State.blit_flips (s : State) (x y : Reg) (n : Fin 16) :
    Flips (SpriteCovers s x y n) (s.fb, false) (s.blit (s.anchorX x) (s.anchorY y) n.val) := by
  refine Flips.congr (Flips.foldl_range (fun acc r => blitRow_flips s.drawEdge (s.anchorX x) (s.anchorY y + r)
    (s.readByte (s.effAddr r)) acc) n.val ?_ (s.fb, false)) fun px py => (spriteCovers_iff_target s x y n px py).symm
  rintro r r' px py hrr hr' ⟨_, _, -, h⟩ ⟨_, _, -, h'⟩
  have := (target_mod h).2
  have := (target_mod h').2
  omega

/-! ### DXYN -/

/-- DXYN leaves the collision of its blit in `VF`. -/
theorem execDrw_flag {x y : Reg} {n : Fin 16} {s t : State} (h : exec (.drw x y n) s = .next t) :
    t.v[(0xF : Reg)] = flagByte (s.blit (s.anchorX x) (s.anchorY y) n.val).2 := by
  obtain rfl := Host.Outcome.next.inj h
  exact (State.setV_get _ flagReg flagReg _).trans (if_pos rfl)

/-- Settles O26: the frame is the instruction's, and the pixels and the collision are the blit's. -/
theorem drawFlipsCoveredPixels : Obligations.DrawFlipsCoveredPixels := by
  intro x y n s
  have hblit := s.blit_flips x y n
  refine ⟨decode_encode (.drw x y n), _, rfl, State.finish_advancedPast rfl,
    fun px py => ⟨hblit.covered px py, hblit.uncovered px py⟩, fun hon => ?_, fun hoff => ?_, rfl,
    exec_frame (i := .drw x y n) rfl⟩
  · have hcollision := hblit.collides.2 (.inr hon)
    exact (execDrw_flag rfl).trans (congrArg flagByte hcollision)
  · have hnone := mt hblit.collides.1 (not_or.2 ⟨Bool.false_ne_true, hoff⟩)
    exact (execDrw_flag rfl).trans (congrArg flagByte (Bool.eq_false_of_not_eq_true hnone))

/-- What a sprite covers depends only on its anchor registers, its bytes and the edge policy. -/
theorem spriteCovers_congr {s t : State} {x y : Reg} {n : Fin 16} (hx : t.v[x] = s.v[x]) (hy : t.v[y] = s.v[y])
    (hedge : t.drawEdge = s.drawEdge)
    (hbytes : ∀ r, r < n.val → t.readByte (t.i.toNat + r) = s.readByte (s.i.toNat + r)) (px : Fin 64) (py : Fin 32) :
    SpriteCovers t x y n px py ↔ SpriteCovers s x y n px py :=
  exists_congr fun r => exists_congr fun _ => and_congr_right fun hr => by rw [hbytes r hr, hx, hy, hedge]

/-- Settles O27: the two draws cover the same pixels, so the second flips back what the first flipped, and a covered pixel is on
before the second exactly when the first turned it on. -/
theorem drawTwiceRestoresFrame : Obligations.DrawTwiceRestoresFrame := by
  intro x y n s hxF hyF
  obtain ⟨-, t, ht, -, hpix, -, hvf0, -, hframe⟩ := drawFlipsCoveredPixels x y n s
  refine ⟨t, ht, fun t' hfb hx hy _ hedge hbytes => ?_⟩
  obtain ⟨-, u, hu, -, hpix', hvf1', hvf0', -, -⟩ := drawFlipsCoveredPixels x y n t'
  have hsame : ∀ px py, SpriteCovers t' x y n px py ↔ SpriteCovers s x y n px py := by
    refine spriteCovers_congr (hx.trans (hframe.regs x (by simpa using hxF)))
      (hy.trans (hframe.regs y (by simpa using hyF))) (hedge.trans hframe.params.1) fun r hr => ?_
    rw [hbytes r hr, hframe.index rfl, exec_keeps_readByte ht rfl]
  have hon : (∃ px py, SpriteCovers t' x y n px py ∧ pixelAt t'.fb px py = true) ↔
      ∃ px py, pixelAt s.fb px py = false ∧ pixelAt t.fb px py = true := by
    refine exists_congr fun px => exists_congr fun py => ?_
    rw [hsame, hfb]
    by_cases hc : SpriteCovers s x y n px py
    · simp [(hpix px py).1 hc, hc]
    · simp [(hpix px py).2 hc, hc]
  rw [← hon]
  refine ⟨u, hu, frame_ext fun px py => ?_, hvf1', hvf0', fun hblank hcov => ?_⟩
  · by_cases hc : SpriteCovers s x y n px py
    · rw [(hpix' px py).1 ((hsame px py).2 hc), hfb, (hpix px py).1 hc, Bool.not_not]
    · rw [(hpix' px py).2 (mt (hsame px py).1 hc), hfb, (hpix px py).2 hc]
  · obtain ⟨px, py, hc⟩ := hcov
    exact ⟨hvf0 (by simp [hblank]), hvf1' ⟨px, py, (hsame px py).2 hc, by rw [hfb, (hpix px py).1 hc, hblank]; rfl⟩⟩

end Sys2Proof.Machine

/-! SUPPORT. Control transfer (41_control_flow.md): where a skip and a computed jump leave `PC`, and what a call and a return do at
each depth of the stack. -/

namespace Sys2Proof.Machine

/-! ### Widened operands (R9, R79) -/

theorem zext16_toNat {w : Nat} (hw : w ≤ 16) (b : BitVec w) : (zext16 b).toNat = b.toNat :=
  BitVec.toNat_setWidth_of_le hw

/-- A sum of two widened operands that fits in 16 bits is exact. -/
theorem zext16_add_zext16_toNat {m n : Nat} (hm : m ≤ 16) (hn : n ≤ 16) (a : BitVec m) (b : BitVec n)
    (h : a.toNat + b.toNat < 65536) : (zext16 a + zext16 b).toNat = a.toNat + b.toNat := by
  rw [BitVec.toNat_add, zext16_toNat hm, zext16_toNat hn, Nat.mod_eq_of_lt h]

theorem xOfNnn_val (nnn : Addr12) : (xOfNnn nnn).val = nnn.toNat / 256 := by
  have h : (xOfNnn nnn).val = (nnn.extractLsb' 8 4).toNat := rfl
  rw [h, BitVec.extractLsb'_toNat, Nat.shiftRight_eq_div_pow]
  omega

theorem nnOfNnn_toNat (nnn : Addr12) : (nnOfNnn nnn).toNat = nnn.toNat % 256 := by
  rw [nnOfNnn, BitVec.extractLsb'_toNat, Nat.shiftRight_zero]

/-! ### Jumps (R73, R79) -/

/-- Settles O30: the target is the widened `nnn`. -/
theorem jumpReplacesPc : Obligations.JumpReplacesPc := fun nnn _ =>
  ⟨decode_encode (.jp nnn), _, rfl, rfl, zext16_toNat (by decide) nnn, exec_frame (i := .jp nnn) rfl⟩

theorem State.jumpOffsetTarget_legacy {s : State} (h : s.legacy = true) (nnn : Addr12) :
    (s.jumpOffsetTarget nnn).toNat = nnn.toNat + s.v[(0 : Reg)].toNat := by
  rw [State.jumpOffsetTarget, if_pos h, zext16_add_zext16_toNat (by decide) (by decide) _ _ (by omega)]

theorem State.jumpOffsetTarget_modern {s : State} (h : s.legacy = false) {nnn : Addr12} {x : Reg} {nn : Byte}
    (hnnn : nnn.toNat = x.val * 256 + nn.toNat) : (s.jumpOffsetTarget nnn).toNat = nn.toNat + s.v[x].toNat := by
  obtain rfl : xOfNnn nnn = x := Fin.ext (by rw [xOfNnn_val]; omega)
  obtain rfl : nnOfNnn nnn = nn := BitVec.eq_of_toNat_eq (by rw [nnOfNnn_toNat]; omega)
  rw [State.jumpOffsetTarget, if_neg (Bool.eq_false_iff.1 h),
    zext16_add_zext16_toNat (by decide) (by decide) _ _ (by omega)]

/-- Settles O35: in either mode the two operands are too small for their sum to leave 16 bits. -/
theorem jumpWithOffsetAddsRegister : Obligations.JumpWithOffsetAddsRegister := fun nnn _ =>
  ⟨decode_encode (.jpOffset nnn), _, rfl, rfl, fun h => State.jumpOffsetTarget_legacy h nnn,
    fun h _ _ hnnn => State.jumpOffsetTarget_modern h hnnn, exec_frame (i := .jpOffset nnn) rfl⟩

/-! ### Skips (R75 to R78, R80) -/

/-- A skip that completes leaves `PC` 4 or 2 past the instruction, as its condition says. -/
theorem State.skipIf_advancedSkipping (s : State) {c : Bool} {skipped : Prop} (hc : c = true ↔ skipped) :
    AdvancedSkipping skipped s ((s.advance.skipIf c).finish .advanced) := by
  refine ⟨rfl, fun h => ?_, fun h => ?_⟩
  · simp [hc.2 h, BitVec.toNat_add, Nat.add_assoc]
  · simp [mt hc.1 h, BitVec.toNat_add]

/-- Settles O33: the condition of each skip compares the register and the immediate as numbers. -/
theorem immediateSkipsCompare : Obligations.ImmediateSkipsCompare := fun x nn s =>
  have heq : s.v[x] = nn ↔ s.v[x].toNat = nn.toNat := BitVec.toNat_inj.symm
  ⟨⟨decode_encode (.seImm x nn), _, rfl, s.skipIf_advancedSkipping (decide_eq_true_iff.trans heq),
      exec_frame (i := .seImm x nn) rfl⟩,
    decode_encode (.sneImm x nn), _, rfl, s.skipIf_advancedSkipping (decide_eq_true_iff.trans (not_congr heq)),
    exec_frame (i := .sneImm x nn) rfl⟩

/-- Settles O34: the condition of each skip compares the two registers as numbers. -/
theorem registerSkipsCompare : Obligations.RegisterSkipsCompare := fun x y s =>
  have heq : s.v[x] = s.v[y] ↔ s.v[x].toNat = s.v[y].toNat := BitVec.toNat_inj.symm
  ⟨⟨decode_encode (.seReg x y), _, rfl, s.skipIf_advancedSkipping (decide_eq_true_iff.trans heq),
      exec_frame (i := .seReg x y) rfl⟩,
    decode_encode (.sneReg x y), _, rfl, s.skipIf_advancedSkipping (decide_eq_true_iff.trans (not_congr heq)),
    exec_frame (i := .sneReg x y) rfl⟩

/-! ### Call and return (R72, R74) -/

theorem instrWrites_ret_of_pos {s : State} (h : 0 < s.sp.val) : instrWrites .ret s = { stack := true } :=
  if_neg (Nat.ne_of_gt h)

theorem instrWrites_call_of_lt {s : State} (nnn : Addr12) (h : s.sp.val < 16) :
    instrWrites (.call nnn) s = { stack := true } :=
  if_neg (Nat.ne_of_lt h)

/-- Settles O29, by the depth: each end of 00EE is an equation, and its frame is the instruction's. -/
theorem returnPopsOrRaisesUnderflow : Obligations.ReturnPopsOrRaisesUnderflow := by
  refine fun s => ⟨decode_encode .ret, fun hpos => ?_, fun h0 => ?_⟩
  · have he := execRet_of_pos hpos
    exact ⟨_, he, rfl, rfl, rfl, rfl, instrWrites_ret_of_pos hpos ▸ exec_frame (i := .ret) he⟩
  · exact ⟨_, execRet_of_empty h0, s.raise_raised .stackUnderflow _⟩

/-- Settles O31, by the depth: the push writes entry `SP` alone, with the advanced `PC`. -/
theorem callPushesOrRaisesOverflow : Obligations.CallPushesOrRaisesOverflow := by
  refine fun nnn s => ⟨decode_encode (.call nnn), fun hlt => ?_, fun h16 => ?_⟩
  · have he := execCall_of_lt nnn hlt
    refine ⟨_, he, rfl, zext16_toNat (by decide) nnn, rfl, ?_, fun k hk => ?_,
      instrWrites_call_of_lt nnn hlt ▸ exec_frame (i := .call nnn) he⟩
    · simp [BitVec.toNat_add]
    · exact Vector.getElem_set_ne hlt k.isLt hk.symm
  · exact ⟨_, execCall_of_full nnn h16, s.raise_raised .stackOverflow _⟩

/-- Settles O32: the call leaves a depth above 0, so the return pops, and the entry it pops is the one the call pushed. -/
theorem returnAfterCallRestoresPc : Obligations.ReturnAfterCallRestoresPc := by
  intro nnn s hlt
  obtain ⟨-, hcall, -⟩ := callPushesOrRaisesOverflow nnn s
  obtain ⟨t, ht, -, -, htsp, hpushed, -, -⟩ := hcall hlt
  refine ⟨t, ht, fun t' hstack hsp => ?_⟩
  have hdepth : t'.sp.val = s.sp.val + 1 := (congrArg Fin.val hsp).trans htsp
  obtain ⟨-, hret, -⟩ := returnPopsOrRaisesUnderflow t'
  obtain ⟨u, hu, -, hpc, husp, -, -⟩ := hret (by omega)
  refine ⟨u, hu, ?_, Fin.ext (by omega)⟩
  rw [hpc, ← hpushed]
  simp only [hstack, hdepth, Nat.add_sub_cancel]

end Sys2Proof.Machine

/-! SUPPORT. Register arithmetic and logic (42_alu.md): what an instruction that writes one register, or a result and its flag, leaves
there, and the flags and the shifts as numbers. -/

namespace Sys2Proof.Machine

/-! ### How an arithmetic or logic instruction ends -/

/-- The end of an instruction that writes one register. -/
theorem setV_advances (s : State) (x : Reg) (b : Byte) :
    ∃ t, complete (s.advance.setV x b) = .next t ∧ AdvancedPast s t ∧ t.v[x] = b ∧ Frame { regs := [x] } s t := by
  obtain ⟨t, ht, hframe⟩ := setV_framed s x b
  obtain rfl := Host.Outcome.next.inj ht
  exact ⟨_, ht, State.finish_advancedPast rfl, (State.setV_get _ x x b).trans (if_pos rfl), hframe⟩

/-- The end of an instruction that writes one register, bit by bit. -/
theorem setV_advances_bitwise (s : State) (x : Reg) {b : Byte} {bit : Nat → Bool} (hb : ∀ k, b.getLsbD k = bit k) :
    ∃ t, complete (s.advance.setV x b) = .next t ∧ AdvancedPast s t ∧ (∀ k, k < 8 → t.v[x].getLsbD k = bit k) ∧
      Frame { regs := [x] } s t := by
  obtain ⟨t, ht, hadv, rfl, hframe⟩ := setV_advances s x b
  exact ⟨t, ht, hadv, fun k _ => hb k, hframe⟩

/-- The end of an instruction that writes a result and its flag, as numbers: the flag wins where both go to `VF` (R15). -/
theorem setVWithFlag_advances (s : State) (x : Reg) {b f : Byte} {result flag : Nat} (hb : b.toNat = result)
    (hf : f.toNat = flag) :
    ∃ t, complete (s.advance.setVWithFlag x b f) = .next t ∧ AdvancedPast s t ∧ (x ≠ 0xF → t.v[x].toNat = result) ∧
      t.v[(0xF : Reg)].toNat = flag ∧ Frame { regs := [x, 0xF] } s t := by
  obtain ⟨t, ht, hframe⟩ := setVWithFlag_framed s x b f
  obtain rfl := Host.Outcome.next.inj ht
  have hget (r : Reg) := s.advance.setVWithFlag_get x r b f
  refine ⟨_, ht, State.finish_advancedPast rfl, fun hx => ?_, ?_, hframe⟩
  · have hresult := (hget x).trans ((if_neg hx).trans (if_pos rfl))
    exact (congrArg BitVec.toNat hresult).trans hb
  · have hflag := (hget flagReg).trans (if_pos rfl)
    exact (congrArg BitVec.toNat hflag).trans hf

/-! ### Carry and borrow (R87, R88, R90) -/

theorem flagByte_decide_toNat (p : Prop) [Decidable p] : (flagByte (decide p)).toNat = if p then 1 else 0 := by
  by_cases h : p <;> simp [flagByte, h]

theorem carryFlag_toNat (a b : Byte) : (carryFlag a b).toNat = if a.toNat + b.toNat > 255 then 1 else 0 :=
  flagByte_decide_toNat _

theorem noBorrowFlag_toNat (a b : Byte) : (noBorrowFlag a b).toNat = if a.toNat ≥ b.toNat then 1 else 0 :=
  flagByte_decide_toNat _

/-- Settles O39: the exact sum modulo 256, and its carry. -/
theorem addSetsCarry : Obligations.AddSetsCarry := fun x y s =>
  ⟨decode_encode (.addReg x y), setVWithFlag_advances s x (BitVec.toNat_ofNat _ _) (carryFlag_toNat _ _)⟩

/-- Settles O40: the two directions differ in which register is the minuend. -/
theorem subtractSetsNotBorrow : Obligations.SubtractSetsNotBorrow := fun x y s =>
  ⟨⟨decode_encode (.subReg x y), setVWithFlag_advances s x (BitVec.toNat_ofNat _ _) (noBorrowFlag_toNat _ _)⟩,
    decode_encode (.subnReg x y), setVWithFlag_advances s x (BitVec.toNat_ofNat _ _) (noBorrowFlag_toNat _ _)⟩

/-! ### Shifts (R89, R91) -/

/-- The source of a shift is the register its mode selects. -/
theorem State.shiftSource_toNat {s : State} {x y : Reg} {src : Nat} (hlegacy : s.legacy = true → src = s.v[y].toNat)
    (hmodern : s.legacy = false → src = s.v[x].toNat) : (s.shiftSource x y).toNat = src := by
  cases h : s.legacy with
  | true => simp [State.shiftSource, h, hlegacy h]
  | false => simp [State.shiftSource, h, hmodern h]

theorem shiftRight_one_toNat (b : Byte) : (b >>> 1).toNat = b.toNat / 2 := by
  rw [BitVec.toNat_ushiftRight, Nat.shiftRight_one]

theorem shiftLeft_one_toNat (b : Byte) : (b <<< 1).toNat = 2 * b.toNat % 256 := by
  rw [BitVec.toNat_shiftLeft, Nat.shiftLeft_eq, Nat.mul_comm, Nat.pow_one]

theorem shiftedOutRight_toNat (b : Byte) : (shiftedOutRight b).toNat = b.toNat % 2 := by
  rw [shiftedOutRight, BitVec.toNat_and]
  exact Nat.and_one_is_mod _

theorem shiftedOutLeft_toNat (b : Byte) : (shiftedOutLeft b).toNat = b.toNat / 128 := by
  rw [shiftedOutLeft, BitVec.toNat_ushiftRight, Nat.shiftRight_eq_div_pow]

/-- Settles O41: in either mode both shifts read one source, and every result and flag is a number of that source. -/
theorem shiftsPutOutgoingBitInFlag : Obligations.ShiftsPutOutgoingBitInFlag := by
  intro x y s src hlegacy hmodern
  obtain rfl := State.shiftSource_toNat hlegacy hmodern
  exact ⟨⟨decode_encode (.shr x y), setVWithFlag_advances s x (shiftRight_one_toNat _) (shiftedOutRight_toNat _)⟩,
    decode_encode (.shl x y), setVWithFlag_advances s x (shiftLeft_one_toNat _) (shiftedOutLeft_toNat _)⟩

/-! ### One register and no flag (R81 to R86, R92) -/

/-- Settles O37: each is one register write; the sum wraps as a byte does. -/
theorem loadAddMoveWriteOneRegister : Obligations.LoadAddMoveWriteOneRegister := by
  refine fun x y nn s => ⟨⟨decode_encode (.ldImm x nn), setV_advances s x nn⟩, ⟨decode_encode (.addImm x nn), ?_⟩,
    decode_encode (.ldReg x y), setV_advances s x s.v[y]⟩
  obtain ⟨t, ht, hadv, hv, hframe⟩ := setV_advances s x (BitVec.ofNat 8 (s.v[x].toNat + nn.toNat))
  exact ⟨t, ht, hadv, (congrArg BitVec.toNat hv).trans (BitVec.toNat_ofNat _ _), hframe⟩

/-- Settles O38: the logic of bytes is the logic of their bits. -/
theorem logicWorksBitwiseWithoutFlag : Obligations.LogicWorksBitwiseWithoutFlag := fun x y s =>
  ⟨⟨decode_encode (.orReg x y), setV_advances_bitwise s x fun _ => BitVec.getLsbD_or⟩,
    ⟨decode_encode (.andReg x y), setV_advances_bitwise s x fun _ => BitVec.getLsbD_and⟩,
    decode_encode (.xorReg x y), setV_advances_bitwise s x fun _ => BitVec.getLsbD_xor⟩

/-- Settles O42: the mask is bitwise, whatever the random byte. -/
theorem randomIsMaskedByImmediate : Obligations.RandomIsMaskedByImmediate := fun x nn s =>
  ⟨decode_encode (.rnd x nn), setV_advances_bitwise s x fun _ => BitVec.getLsbD_and⟩

end Sys2Proof.Machine

/-! SUPPORT. The index register and memory transfer (43_index_memory.md): the writers of `I` as numbers, and a transfer byte by byte
from the effective address `I + k` (R100). -/

namespace Sys2Proof.Machine

/-! ### The writers of `I` (R94 to R96) -/

/-- The end of an instruction that writes `I`, as a number. -/
theorem setIndex_advances (s : State) {i : Word} {n : Nat} (hi : i.toNat = n) :
    ∃ t, complete (s.advance.setIndex i) = .next t ∧ AdvancedPast s t ∧ t.i.toNat = n ∧ Frame { index := true } s t := by
  obtain ⟨t, ht, hframe⟩ := setIndex_framed s i
  obtain rfl := Host.Outcome.next.inj ht
  exact ⟨_, ht, State.finish_advancedPast rfl, hi, hframe⟩

/-- Settles O44: each is one write of `I`; the sum wraps as a word does, and 5 times a byte fits in 16 bits. -/
theorem indexIsSetAddedAndLookedUp : Obligations.IndexIsSetAddedAndLookedUp := fun nnn x s =>
  have hfits : 5 * s.v[x].toNat < 2 ^ 16 := by omega
  ⟨⟨decode_encode (.ldI nnn), setIndex_advances s (zext16_toNat (by decide) nnn)⟩,
    ⟨decode_encode (.addI x), setIndex_advances s (BitVec.toNat_ofNat _ _)⟩,
    decode_encode (.ldF x), setIndex_advances s ((BitVec.toNat_ofNat _ _).trans (Nat.mod_eq_of_lt hfits))⟩

/-! ### Transfers at `I` (R97 to R99) -/

theorem State.indexAfterRange_legacy {s : State} (h : s.legacy = true) (x : Reg) :
    (s.indexAfterRange x).toNat = (s.i.toNat + x.val + 1) % 65536 := by
  rw [State.indexAfterRange, if_pos h, BitVec.toNat_ofNat]

/-- Byte `k` of a run stored from `I`, with `PC` advanced, is read at its effective address. -/
theorem State.advance_writeBytes_readByte (s : State) {bs : List Byte} {k : Nat} (hk : k < bs.length)
    (hl : bs.length ≤ 4096) : (s.advance.writeBytes (s.effAddr 0) bs).readByte (s.effAddr k) = bs[k] :=
  State.readByte_writeBytes_inside bs s.advance (s.effAddr 0) k hk hl

/-- The digits of a byte as numbers: each is below 256, so none is cut off. -/
theorem bcdDigits_map_toNat (b : Byte) :
    (bcdDigits b).map BitVec.toNat = [b.toNat / 100, b.toNat / 10 % 10, b.toNat % 10] := by
  simp only [bcdDigits, List.map_cons, List.map_nil, BitVec.toNat_ofNat, List.cons.injEq, and_true]
  omega

/-- After FX33 the byte at `I + k` is digit `k` of `V[x]`. -/
theorem execLdB_digit {x : Reg} {s t : State} (h : exec (.ldB x) s = .next t) {k : Nat} (hk : k < 3) :
    (t.readByte (s.effAddr k)).toNat = [s.v[x].toNat / 100, s.v[x].toNat / 10 % 10, s.v[x].toNat % 10][k] := by
  obtain rfl := Host.Outcome.next.inj h
  have hbyte := s.advance_writeBytes_readByte (bs := bcdDigits s.v[x]) hk (by simp)
  rw [State.finish_readByte, hbyte]
  simp only [← bcdDigits_map_toNat]
  exact (List.getElem_map _).symm

/-- After FX55 the byte at `I + k` is `V[k]`, for every `k` up to `x`. -/
theorem execLdMemVx_readByte {x k : Reg} {s t : State} (h : exec (.ldMemVx x) s = .next t) (hk : k ≤ x) :
    t.readByte (s.effAddr k) = s.v[k] := by
  obtain rfl := Host.Outcome.next.inj h
  have hlen := s.regRange_length x
  have hk' : k.val ≤ x.val := hk
  rw [State.finish_readByte, State.setIndex_readByte, s.advance_writeBytes_readByte (by omega) (by omega)]
  exact s.regRange_getElem _

/-- Settles O45: the three bytes stored from `I` are the digits. -/
theorem bcdStoresThreeDigits : Obligations.BcdStoresThreeDigits := fun x _ =>
  ⟨decode_encode (.ldB x), _, rfl, State.finish_advancedPast (State.writeBytes_pc _ _ _),
    execLdB_digit rfl (k := 0) (by decide), execLdB_digit rfl (k := 1) (by decide),
    execLdB_digit rfl (k := 2) (by decide), exec_frame (i := .ldB x) rfl⟩

/-- Settles O46: the bytes stored are the registers up to `x`, and the advance of `I` is the mode's. -/
theorem rangeStoreWritesRegisters : Obligations.RangeStoreWritesRegisters := fun x _ =>
  ⟨decode_encode (.ldMemVx x), _, rfl, State.finish_advancedPast (State.writeBytes_pc _ _ _),
    fun _ hk => execLdMemVx_readByte rfl hk, fun h => State.indexAfterRange_legacy h x,
    exec_frame (i := .ldMemVx x) rfl⟩

/-- Settles O47: a register up to `x` is the byte at its effective address, and the advance of `I` is the mode's. -/
theorem rangeLoadReadsRegisters : Obligations.RangeLoadReadsRegisters := fun x s =>
  ⟨decode_encode (.ldVxMem x), _, rfl, State.finish_advancedPast rfl,
    fun k hk => (s.advance.loadRange_get x k).trans (if_pos hk), fun h => State.indexAfterRange_legacy h x,
    exec_frame (i := .ldVxMem x) rfl⟩

end Sys2Proof.Machine

/-! SUPPORT. Keys and timers (44_keys_timers.md): when a key counts as pressed, the two ends of FX0A, and the timer moves. -/

namespace Sys2Proof.Machine

/-! ### Key skips (R101, R102) -/

theorem keyPressed_iff (keys : Word) (k : Byte) :
    keyPressed keys k = true ↔ k.toNat < 16 ∧ keys.getLsbD k.toNat = true := by
  rw [keyPressed, Bool.and_eq_true, decide_eq_true_iff]

/-- Settles O50: the two skips take one condition and its negation. -/
theorem keySkipsTestPressedKey : Obligations.KeySkipsTestPressedKey := fun x s =>
  have hpressed := keyPressed_iff s.keys s.v[x]
  ⟨⟨decode_encode (.skp x), _, rfl, s.skipIf_advancedSkipping hpressed, exec_frame (i := .skp x) rfl⟩,
    decode_encode (.sknp x), _, rfl, s.skipIf_advancedSkipping (Bool.not_iff_not.trans (not_congr hpressed)),
    exec_frame (i := .sknp x) rfl⟩

/-! ### The key wait (R103) -/

/-- A key number fits in a byte. -/
theorem keyNumber_toNat (k : Fin 16) : (BitVec.ofNat 8 k.val).toNat = k.val := by
  rw [BitVec.toNat_ofNat]
  omega

theorem exists_lowestKey {keys : Word} (h : keys ≠ 0#16) : ∃ k, lowestKey keys = some k :=
  Option.ne_none_iff_exists'.1 (mt (lowestKey_none_iff keys).1 h)

/-- Settles O51, by whether a key is down: FX0A writes the number of the lowest pressed key, or it blocks at itself. -/
theorem keyWaitStoresLowestKeyOrBlocks : Obligations.KeyWaitStoresLowestKeyOrBlocks := by
  refine fun x s => ⟨decode_encode (.ldVxK x), fun hdown => ?_, fun hnone => ?_⟩
  · obtain ⟨k, hk⟩ := exists_lowestKey hdown
    obtain ⟨hpressed, hlower⟩ := lowestKey_some hk
    obtain ⟨t, ht, hadv, hv, hframe⟩ := setV_advances s x (BitVec.ofNat 8 k.val)
    have hnum : t.v[x].toNat = k.val := (congrArg BitVec.toNat hv).trans (keyNumber_toNat k)
    refine ⟨t, (execLdVxK_of_some x hk).trans ht, hadv, ?_⟩
    rw [hnum]
    exact ⟨k.isLt, hpressed, fun j hj => hlower ⟨j, hj.trans k.isLt⟩ hj, hframe⟩
  · exact ⟨_, execLdVxK_of_none x ((lowestKey_none_iff s.keys).2 hnone), rfl, rfl, (Frame.refl _ s).finish _⟩

/-! ### Timer moves (R104 to R106) -/

/-- Settles O52: each is one move, and its frame is the instruction's. -/
theorem timersAreReadAndSet : Obligations.TimersAreReadAndSet := fun x s =>
  ⟨⟨decode_encode (.ldVxDt x), setV_advances s x s.dt⟩,
    ⟨decode_encode (.ldDtVx x), _, rfl, State.finish_advancedPast rfl, rfl, exec_frame (i := .ldDtVx x) rfl⟩,
    decode_encode (.ldStVx x), _, rfl, State.finish_advancedPast rfl, rfl, exec_frame (i := .ldStVx x) rfl⟩

end Sys2Proof.Machine

/-! SUPPORT. Exceptions and timers (60_exceptions.md): a tick of the two timers, the four ways a block comes to be halted, and what a
halt leaves of the operation that caused it. -/

namespace Sys2Proof.Machine

/-! ### The timers (R115, R117) -/

theorem countDown_toNat (b : Byte) : (countDown b).toNat = b.toNat - 1 := by
  rw [countDown, BitVec.toNat_ofNat]
  omega

/-- The tone-off event is the sound timer's last count (R116). -/
theorem toneOffEvent_iff (s : State) : toneOffEvent s = true ↔ s.st.toNat = 1 :=
  decide_eq_true_iff.trans BitVec.toNat_inj.symm

/-- `TICK` of a block that is not halted counts both timers and reports the event. -/
theorem tickOp_of_running {s : State} (hh : s.halt = false) :
    tickOp s = (((s.setDelay (countDown s.dt)).setSound (countDown s.st)).setTone (toneOffEvent s)).finish
      (.toneOff (toneOffEvent s)) :=
  if_neg (Bool.eq_false_iff.1 hh)

/-- Settles O17, by `HALT`: a halted block ticks as O20 says, and each timer of a running one counts down as a number. -/
theorem tickCountsBothTimersDown : Obligations.TickCountsBothTimersDown := by
  intro s hop
  refine ⟨fun hh => (haltedStepAndTickChangeNothing s hh).2 hop, fun hh => ?_⟩
  have hevent := toneOffEvent_iff s.takeOp
  have htick := tickOp_of_running (s := s.takeOp) hh
  exact ⟨_, (step_of_nextOp hop).trans (congrArg Host.Outcome.next htick), countDown_toNat s.dt, countDown_toNat s.st,
    hevent.2, fun h1 => Bool.eq_false_iff.2 (mt hevent.1 h1), rfl, rfl⟩

theorem instrWrites_delay {i : Instr} {s : State} (h : (instrWrites i s).delay = true) : ∃ x, i = .ldDtVx x := by
  cases i with
  | ldDtVx x => exact ⟨x, rfl⟩
  | ret | call | ldVxK => simp only [instrWrites] at h; split at h <;> cases h
  | _ => cases h

theorem instrWrites_sound {i : Instr} {s : State} (h : (instrWrites i s).sound = true) : ∃ x, i = .ldStVx x := by
  cases i with
  | ldStVx x => exact ⟨x, rfl⟩
  | ret | call | ldVxK => simp only [instrWrites] at h; split at h <;> cases h
  | _ => cases h

/-- A `STEP` keeps both timers, or runs an instruction from a state with the same timers. -/
theorem step_keeps_timers_or_executes {s t : State} {keys : Word} {rnd : Byte} (hop : s.nextOp = .step keys rnd)
    (h : step s = .next t) :
    (t.dt = s.dt ∧ t.st = s.st) ∨ ∃ i, Executes s i ∧ exec i (s.takeOp.beginStep keys rnd) = .next t := by
  have hstep : stepOp keys rnd s.takeOp = .next t := (step_of_nextOp hop).symm.trans h
  rcases stepOp_cases keys rnd s.takeOp with ⟨-, he⟩ | ⟨hh, i, hd, he⟩ | ⟨-, -, he⟩
  · cases he.symm.trans hstep
    exact .inl ⟨rfl, rfl⟩
  · exact .inr ⟨i, ⟨hh, ⟨keys, rnd, hop⟩, hd⟩, he.symm.trans hstep⟩
  · cases he.symm.trans hstep
    exact .inl ⟨rfl, rfl⟩

/-- Settles O53, by the instruction's frame: a timer outside it is kept, and the frame lists `DT` for FX15 alone and `ST` for FX18
alone. -/
theorem stepsDoNotCountTimers : Obligations.StepsDoNotCountTimers := by
  intro s t keys rnd hop h
  rcases step_keeps_timers_or_executes hop h with ⟨hdt, hst⟩ | ⟨i, hx, he⟩
  · exact ⟨fun hne => absurd hdt hne, fun hne => absurd hst hne⟩
  · have hframe := exec_frame he
    refine ⟨fun hne => ?_, fun hne => ?_⟩
    · obtain ⟨x, rfl⟩ := instrWrites_delay (Bool.eq_true_of_not_eq_false (mt hframe.delay hne))
      exact ⟨x, hx⟩
    · obtain ⟨x, rfl⟩ := instrWrites_sound (Bool.eq_true_of_not_eq_false (mt hframe.sound hne))
      exact ⟨x, hx⟩

/-! ### What each error condition does (R108) -/

section
variable {s t : State}

theorem step_load_eq_raise {rom : List Byte} (hop : s.nextOp = .load rom) (hl : 3584 < rom.length)
    (h : step s = .next t) : t = s.takeOp.raise .romTooLarge 0x0000#16 0x0000#16 := by
  have hload : loadOp rom s.takeOp = .next t := (step_of_nextOp hop).symm.trans h
  rcases loadOp_cases rom s.takeOp with ⟨-, hle, -⟩ | ⟨-, -, he⟩ | ⟨-, he⟩
  · exact absurd hl (Nat.not_lt.2 hle)
  · exact Host.Outcome.next.inj (hload.symm.trans he)
  · cases he.symm.trans hload

/-- A running block that a `LOAD` halts was given a ROM too large. -/
theorem length_of_step_load_halted {rom : List Byte} (hop : s.nextOp = .load rom) (hh : s.halt = false)
    (h : step s = .next t) (ht : t.halt = true) : 3584 < rom.length := by
  have hload : loadOp rom s.takeOp = .next t := (step_of_nextOp hop).symm.trans h
  rcases loadOp_cases rom s.takeOp with ⟨-, -, he⟩ | ⟨-, hl, -⟩ | ⟨-, he⟩
  · cases he.symm.trans hload
    simp [hh] at ht
  · exact hl
  · cases he.symm.trans hload

theorem step_illegal_eq_raise {keys : Word} {rnd : Byte} (hop : s.nextOp = .step keys rnd) (hh : s.halt = false)
    (hw : legalWord (s.fetch s.pc) = false) (h : step s = .next t) :
    t = (s.takeOp.beginStep keys rnd).raise .unknownInstruction (s.fetch s.pc) s.pc :=
  Host.Outcome.next.inj (h.symm.trans (step_of_decode_error hop hh (decode_of_not_legalWord hw)))

/-- The word that an executed instruction is the decoding of is its encoding. -/
theorem Executes.encode_eq {i : Instr} (hx : Executes s i) : encode i = s.fetch s.pc := by
  obtain ⟨-, -, hd⟩ := hx
  exact encode_of_decode hd

theorem Executes.call_eq_raise {nnn : Addr12} (hx : Executes s (.call nnn)) (hsp : s.sp.val = 16) (h : step s = .next t) :
    ∃ keys rnd, t = (s.takeOp.beginStep keys rnd).raise .stackOverflow (s.fetch s.pc) s.pc := by
  obtain ⟨keys, rnd, he⟩ := hx.exec_eq h
  have hfull := execCall_of_full (s := s.takeOp.beginStep keys rnd) nnn hsp
  rw [hx.encode_eq] at hfull
  exact ⟨keys, rnd, Host.Outcome.next.inj (he.symm.trans hfull)⟩

theorem Executes.ret_eq_raise (hx : Executes s .ret) (hsp : s.sp.val = 0) (h : step s = .next t) :
    ∃ keys rnd, t = (s.takeOp.beginStep keys rnd).raise .stackUnderflow (s.fetch s.pc) s.pc := by
  obtain ⟨keys, rnd, he⟩ := hx.exec_eq h
  have hempty := execRet_of_empty (s := s.takeOp.beginStep keys rnd) hsp
  rw [hx.encode_eq] at hempty
  exact ⟨keys, rnd, Host.Outcome.next.inj (he.symm.trans hempty)⟩

/-- An instruction that halts the block is 2NNN on a full stack or 00EE on an empty one. -/
theorem Executes.depth_of_halted {i : Instr} (hx : Executes s i) (h : step s = .next t) (ht : t.halt = true) :
    (s.sp.val = 16 ∧ ∃ nnn, i = .call nnn) ∨ (s.sp.val = 0 ∧ i = .ret) := by
  obtain ⟨keys, rnd, he⟩ := hx.exec_eq h
  obtain ⟨hh, -, -⟩ := hx
  have hrunning : t.halt ≠ s.halt := by simp [hh, ht]
  obtain ⟨u, hu, hends⟩ := everyInstructionAdvancesBlocksOrHalts i (s.takeOp.beginStep keys rnd)
  cases hu.symm.trans he
  rcases hends with ⟨-, hkept⟩ | ⟨-, -, -, hkept⟩ | ⟨-, hi, hsp, -⟩ | ⟨-, hi, hsp, -⟩
  · exact absurd hkept hrunning
  · exact absurd hkept hrunning
  · exact .inl ⟨hsp, hi⟩
  · exact .inr ⟨hsp, hi⟩

end

/-! ### The ways a block comes to be halted (R108 to R110) -/

/-- The four ways a block goes from `s`, not halted, to a halted state: each raises from a state that holds no write of the operation
but what `beginStep` sets. -/
inductive HaltsTo (s : State) : State → Prop where
  | romTooLarge {rom : List Byte} (hop : s.nextOp = .load rom) (hl : 3584 < rom.length) :
      HaltsTo s (s.takeOp.raise .romTooLarge 0x0000#16 0x0000#16)
  | stackOverflow {nnn : Addr12} {keys : Word} {rnd : Byte} (hx : Executes s (.call nnn)) (hsp : s.sp.val = 16) :
      HaltsTo s ((s.takeOp.beginStep keys rnd).raise .stackOverflow (s.fetch s.pc) s.pc)
  | stackUnderflow {keys : Word} {rnd : Byte} (hx : Executes s .ret) (hsp : s.sp.val = 0) :
      HaltsTo s ((s.takeOp.beginStep keys rnd).raise .stackUnderflow (s.fetch s.pc) s.pc)
  | unknownInstruction {keys : Word} {rnd : Byte} (hop : s.nextOp = .step keys rnd)
      (hw : legalWord (s.fetch s.pc) = false) :
      HaltsTo s ((s.takeOp.beginStep keys rnd).raise .unknownInstruction (s.fetch s.pc) s.pc)

/-- The inversion of a halting step. -/
theorem haltsTo_of_step {s t : State} (hh : s.halt = false) (h : step s = .next t) (ht : t.halt = true) :
    HaltsTo s t := by
  cases stepTo_of_step h with
  | instruction hop hx he =>
    rcases hx.depth_of_halted h ht with ⟨hsp, nnn, rfl⟩ | ⟨hsp, rfl⟩
    · obtain ⟨keys, rnd, rfl⟩ := hx.call_eq_raise hsp h
      exact .stackOverflow hx hsp
    · obtain ⟨keys, rnd, rfl⟩ := hx.ret_eq_raise hsp h
      exact .stackUnderflow hx hsp
  | illegalWord hop _ hw => exact .unknownInstruction hop hw
  | loadTooLarge hop _ hl => exact .romTooLarge hop hl
  | tick => rw [tickOp_eq] at ht; cases hh.symm.trans ht
  | haltedStep | readFb | clearDirty => cases hh.symm.trans ht
  | load => simp [hh] at ht
  | reset => cases ht

/-- Settles O24, by the way the block came to be halted: each raises from the state before the operation or, for a `STEP`, from that
state with the inputs sampled and `STARTED` set. -/
theorem errorsArePrecise : Obligations.ErrorsArePrecise := by
  intro s t hh h ht
  cases haltsTo_of_step hh h ht with
  | romTooLarge => exact ⟨rfl, fun hne => absurd rfl hne⟩
  | stackOverflow hx | stackUnderflow hx =>
    obtain ⟨-, hop, -⟩ := hx
    exact ⟨rfl, fun _ => hop⟩
  | unknownInstruction hop => exact ⟨rfl, fun _ => ⟨_, _, hop⟩⟩

/-- A step halts the block exactly under the four conditions of R108. -/
theorem step_halts_iff {s t : State} (hh : s.halt = false) (h : step s = .next t) :
    t.halt = true ↔
      (∃ rom : List Byte, s.nextOp = .load rom ∧ 3584 < rom.length) ∨
      (∃ nnn, Executes s (.call nnn) ∧ s.sp.val = 16) ∨
      (Executes s .ret ∧ s.sp.val = 0) ∨
      (∃ keys rnd, s.nextOp = .step keys rnd ∧ legalWord (s.fetch s.pc) = false) := by
  constructor
  · intro ht
    cases haltsTo_of_step hh h ht with
    | romTooLarge hop hl => exact .inl ⟨_, hop, hl⟩
    | stackOverflow hx hsp => exact .inr (.inl ⟨_, hx, hsp⟩)
    | stackUnderflow hx hsp => exact .inr (.inr (.inl ⟨hx, hsp⟩))
    | unknownInstruction hop hw => exact .inr (.inr (.inr ⟨_, _, hop, hw⟩))
  · rintro (⟨rom, hop, hl⟩ | ⟨nnn, hx, hsp⟩ | ⟨hx, hsp⟩ | ⟨keys, rnd, hop, hw⟩)
    · rw [step_load_eq_raise hop hl h]; rfl
    · obtain ⟨keys, rnd, rfl⟩ := hx.call_eq_raise hsp h; rfl
    · obtain ⟨keys, rnd, rfl⟩ := hx.ret_eq_raise hsp h; rfl
    · rw [step_illegal_eq_raise hop hh hw h]; rfl

/-- Settles O23: the conditions by `step_halts_iff`; and under each operation that can halt the block, the condition that its halt
implies and the record that its error writes. -/
theorem exactlyFourErrorConditions : Obligations.ExactlyFourErrorConditions := by
  intro s t hh h
  refine ⟨step_halts_iff hh h, fun ht => ⟨fun rom hop => ?_, fun nnn hx => ?_, fun hx => ?_, fun keys rnd hop hw => ?_⟩⟩
  · rw [step_load_eq_raise hop (length_of_step_load_halted hop hh h ht) h]
    exact ⟨rfl, rfl, rfl⟩
  · obtain ⟨hsp, -⟩ | ⟨-, hi⟩ := hx.depth_of_halted h ht
    · obtain ⟨keys, rnd, rfl⟩ := hx.call_eq_raise hsp h
      exact ⟨rfl, rfl, rfl⟩
    · cases hi
  · obtain ⟨-, nnn, hi⟩ | ⟨hsp, -⟩ := hx.depth_of_halted h ht
    · cases hi
    · obtain ⟨keys, rnd, rfl⟩ := hx.ret_eq_raise hsp h
      exact ⟨rfl, hx.encode_eq.symm, rfl⟩
  · rw [step_illegal_eq_raise hop hh hw h]
    exact ⟨rfl, rfl, rfl⟩

end Sys2Proof.Machine

/-! SUPPORT. Reset and hazards (70_reset_and_hazards.md): what `LOAD` does inside and outside its window, and what the operations
leave of a halted block. -/

namespace Sys2Proof.Machine

/-! ### `LOAD` (R123) -/

section
variable {s : State} {rom : List Byte}

theorem loadOp_of_fits (hw : s.loadWindow = true) (hl : rom.length ≤ 3584) :
    loadOp rom s = .next ((s.writeBytes 0x200 rom).setLoaded.finish .ok) :=
  (if_pos hw).trans (congrArg Host.Outcome.next (if_neg (Nat.not_lt.2 hl)))

theorem loadOp_of_too_large (hw : s.loadWindow = true) (hl : 3584 < rom.length) :
    loadOp rom s = .next (s.raise .romTooLarge 0x0000#16 0x0000#16) :=
  (if_pos hw).trans (congrArg Host.Outcome.next (if_pos hl))

theorem loadOp_outside_window (hw : s.loadWindow = false) : loadOp rom s = .refused .loadOutsideWindow :=
  if_neg (Bool.eq_false_iff.1 hw)

end

/-- `LOADED` set on both sides stays within any frame. -/
theorem Frame.setLoaded {w : Writes} {s t : State} (h : Frame w s t) : Frame w s.setLoaded t.setLoaded :=
  { h with window := ⟨h.window.left, rfl⟩ }

/-- Settles O16, by the window and the ROM's length: a ROM that fits is one run of byte writes, shorter than memory, so each byte is
read back and the frame lists the run. -/
theorem loadCopiesRomOrRaises : Obligations.LoadCopiesRomOrRaises := by
  intro s rom hop
  have hstep : step s = loadOp rom s.takeOp := step_of_nextOp hop
  rw [hstep]
  refine ⟨fun hh hstarted hloaded hl => ?_, fun hh hstarted hloaded hl => ?_, fun hlate => ?_⟩
  · have hw : s.takeOp.loadWindow = true := s.takeOp.loadWindow_eq_true_iff.2 ⟨hh, hstarted, hloaded⟩
    have hread : ∀ k (hk : k < rom.length), (s.takeOp.writeBytes 0x200 rom).readByte (0x200 + k) = rom[k] :=
      fun k hk => State.readByte_writeBytes_inside rom s.takeOp 0x200 k hk (by omega)
    exact ⟨_, loadOp_of_fits hw hl, rfl, rfl, s.takeOp.writeBytes_pc 0x200 rom, hread,
      ((Frame.refl _ s.takeOp).writeBytes rfl).setLoaded.finish .ok⟩
  · exact loadOp_of_too_large (s.takeOp.loadWindow_eq_true_iff.2 ⟨hh, hstarted, hloaded⟩) hl
  · exact loadOp_outside_window (s.takeOp.loadWindow_eq_false_iff.2 hlate)

/-! ### A halted block (R112, R125) -/

/-- `TICK` of a halted block only reports that there is no event. -/
theorem tickOp_of_halted {s : State} (hh : s.halt = true) : tickOp s = s.finish (.toneOff false) := if_pos hh

/-- Settles O21, by the way the step went: an instruction, an illegal word and either end of a `LOAD` need a block that is not
halted, and of the rest only `CLEAR_DIRTY` writes more than its report. -/
theorem onlyResetLeavesHalt : Obligations.OnlyResetLeavesHalt := by
  intro s t hh h hreset
  cases stepTo_of_step h with
  | haltedStep | readFb => exact ⟨hh, rfl, absurd rfl⟩
  | tick =>
    rw [tickOp_of_halted (s := s.takeOp) hh]
    exact ⟨hh, rfl, absurd rfl⟩
  | clearDirty hop => exact ⟨hh, rfl, fun _ => hop⟩
  | instruction _ hx =>
    obtain ⟨hrunning, -⟩ := hx
    cases hh.symm.trans hrunning
  | illegalWord _ hrunning => cases hh.symm.trans hrunning
  | load _ hw | loadTooLarge _ hw =>
    obtain ⟨hrunning, -⟩ := s.loadWindow_eq_true_iff.1 hw
    cases hh.symm.trans hrunning
  | reset hop => exact absurd hop (hreset _)

end Sys2Proof.Machine
